-- ==== Sys2Proof/Word.lean ====
section
/-! DEFINITION. The bit vectors of the machine: bytes, words, register indices and 12-bit addresses
(00_scope.md R11). Every value is unsigned. -/

namespace Sys2Proof

/-- `u8`: register contents, memory bytes, timers, `kk` (00_scope.md R11). -/
abbrev Byte := BitVec 8

/-- `u16`: instruction words, the program counter, I and stack entries (00_scope.md R11). -/
abbrev Word := BitVec 16

/-- `u4`: register indices, key indices and sprite heights (00_scope.md R11). -/
abbrev Nibble := BitVec 4

/-- `u12`: the address immediate `nnn` (00_scope.md R11, 30_encoding.md R79). -/
abbrev Addr12 := BitVec 12

end Sys2Proof
end

