-- ==== Sys2Proof/WellFormed.lean ====
section
/-! DEFINITION. Which terms of Instr stand for an instruction word of their own. The field widths already admit
exactly the operands of 30_encoding.md R79, R81, R82; one check is left: 00E0 and 00EE are CLS and RET, not
SYS (30_encoding.md R84, R87). -/

namespace Sys2Proof

/-- The SYS operands whose words are CLS and RET (30_encoding.md R84: 00E0 and 00EE take precedence over SYS). -/
def sysOperandTaken (nnn : Addr12) : Bool := nnn == 0x0E0 || nnn == 0x0EE

def Instr.wellFormed : Instr → Bool
  | .cls => true
  | .ret => true
  | .sys nnn => !sysOperandTaken nnn
  | .jp _ => true
  | .call _ => true
  | .seImm _ _ => true
  | .sneImm _ _ => true
  | .seReg _ _ => true
  | .ldImm _ _ => true
  | .addImm _ _ => true
  | .ldReg _ _ => true
  | .or _ _ => true
  | .and _ _ => true
  | .xor _ _ => true
  | .addReg _ _ => true
  | .sub _ _ => true
  | .shr _ _ => true
  | .subn _ _ => true
  | .shl _ _ => true
  | .sneReg _ _ => true
  | .ldI _ => true
  | .jpV0 _ => true
  | .rnd _ _ => true
  | .drw _ _ _ => true
  | .skp _ => true
  | .sknp _ => true
  | .ldVxDt _ => true
  | .ldVxK _ => true
  | .ldDtVx _ => true
  | .ldStVx _ => true
  | .addIVx _ => true
  | .ldFVx _ => true
  | .ldBVx _ => true
  | .ldMemVx _ => true
  | .ldVxMem _ => true

end Sys2Proof
end

