-- ==== Sys2Proof/Config.lean ====
section
/-! DEFINITION. What an implementation fixes (the parameters of 00_scope.md R8) and the one free value of the
spec, the random byte of Cxkk. The parameters' default values stand in Sys2Proof/Machine/Params.lean. -/

namespace Sys2Proof

/-- SHIFT_SOURCE (00_scope.md R8): which register 8xy6 and 8xyE shift. -/
inductive ShiftSource where
  | vx
  | vy
  deriving DecidableEq, Repr

/-- FONT_GLYPHS (00_scope.md R8, 10_state.md R31): 16 glyphs of 5 bytes each. -/
abbrev FontTable := Vector (Vector Byte 5) 16

/-- The parameters of 00_scope.md R8 that a model takes as configuration arguments. DESIGN CHOICE (log 4): they
stand in a field of State that nothing writes, so a claim about every state is a claim about every
parameter value. -/
structure Config where
  shiftSource : ShiftSource
  logicResetsVF : Bool
  loadStoreIncrementsI : Bool
  fontGlyphs : FontTable
  deriving DecidableEq, Repr

/-- The byte the injected random source gives at its n-th draw (00_scope.md R13 `draw_random()`, 41_alu.md R120).
A FREE VALUE (log 3): it has no body, so nothing can be proved of it beyond its width. -/
opaque Config.randomByte : Nat → Byte

end Sys2Proof
end

