-- ==== Sys2Proof/Machine/Params.lean ====
section
/-! DEFINITION. The fixed parameters of 00_scope.md R8 and the default values of its configuration parameters. They
stand in this folder so that a repair may change them. -/

namespace Sys2Proof.Machine

/-- MEM_SIZE (00_scope.md R8): addresses 0x000 to 0xFFF. -/
def memSize : Nat := 4096

/-- MEM_MAX (00_scope.md R8): the highest valid address. -/
def memMax : Nat := 0xFFF

/-- RESERVED_END (00_scope.md R8): the last address of the reserved region 0x000 to 0x1FF, which holds the font and is
not protected (20_memory.md R68, R69; log 21). -/
def reservedEnd : Nat := 0x1FF

/-- PROGRAM_START (00_scope.md R8): the load address and the reset entry point. -/
def programStart : Word := 0x200

/-- ROM_MAX = MEM_SIZE − PROGRAM_START (00_scope.md R8, 10_state.md R58). -/
def romMax : Nat := 3584

/-- STACK_DEPTH (00_scope.md R8, 10_state.md R27). -/
def stackDepth : Nat := 16

/-- FONT_BASE (00_scope.md R8). UNVERIFIED (log 9): fixed by the spec's decision D2. -/
def fontBase : Nat := 0x050

/-- The font's 80 bytes end before this address (10_state.md R31: 0x050 to 0x09F). -/
def fontEnd : Nat := fontBase + 80

/-- INSTR_LEN (00_scope.md R8): the advance of an instruction that does not set pc itself (10_state.md R25). -/
def instrLen : Word := 2

/-- The advance of a taken skip (10_state.md R25, 40_control_flow.md R96). -/
def skipLen : Word := 4

/-- The customary font of 10_state.md R31, the default of FONT_GLYPHS. PRESUMED (log 5): from general knowledge by
the spec's own mark. -/
def defaultFont : FontTable :=
  #v[#v[0xF0, 0x90, 0x90, 0x90, 0xF0], #v[0x20, 0x60, 0x20, 0x20, 0x70],
     #v[0xF0, 0x10, 0xF0, 0x80, 0xF0], #v[0xF0, 0x10, 0xF0, 0x10, 0xF0],
     #v[0x90, 0x90, 0xF0, 0x10, 0x10], #v[0xF0, 0x80, 0xF0, 0x10, 0xF0],
     #v[0xF0, 0x80, 0xF0, 0x90, 0xF0], #v[0xF0, 0x10, 0x20, 0x40, 0x40],
     #v[0xF0, 0x90, 0xF0, 0x90, 0xF0], #v[0xF0, 0x90, 0xF0, 0x10, 0xF0],
     #v[0xF0, 0x90, 0xF0, 0x90, 0x90], #v[0xE0, 0x90, 0xE0, 0x90, 0xE0],
     #v[0xF0, 0x80, 0x80, 0x80, 0xF0], #v[0xE0, 0x90, 0x90, 0x90, 0xE0],
     #v[0xF0, 0x80, 0xF0, 0x80, 0xF0], #v[0xF0, 0x80, 0xF0, 0x80, 0x80]]

/-- The defaults of 00_scope.md R8. DESIGN CHOICE (log 4): the machine after `State.reset` has them. -/
def defaultConfig : Config where
  shiftSource := .vx
  logicResetsVF := false
  loadStoreIncrementsI := false
  fontGlyphs := defaultFont

end Sys2Proof.Machine
end

