-- ==== Sys2Proof/Machine/State.lean ====
section
/-! DEFINITION. The machine's state, the complete list of 10_state.md R40 and two fields of the model's own; the errors;
the outcomes a step can stop with; and the state after reset. -/

namespace Sys2Proof.Machine

/-- The run state (10_state.md R34). -/
inductive RunState where
  | running
  | halted
  deriving DecidableEq, Repr

/-- The five errors (60_exceptions.md R150), in the source's order. Raising one is a next state with the machine
Halted (60_exceptions.md R155), never an outcome `fault`. -/
inductive Error where
  /-- `loadRom` with more than 3584 bytes (60_exceptions.md R154). -/
  | romTooLarge
  /-- Fetch, Dxyn, Fx33, Fx55, Fx65, Ex9E or ExA1 out of range (60_exceptions.md R151). -/
  | outOfBounds
  /-- 2nnn with sp = 16 (60_exceptions.md R152). -/
  | stackOverflow
  /-- 00EE with sp = 0 (60_exceptions.md R152). -/
  | stackUnderflow
  /-- A word that matches no row (60_exceptions.md R153). -/
  | illegalOpcode
  deriving DecidableEq, Repr

/-- How a step stops. -/
inductive Fault where
  /-- Raised by `step` alone, exactly when the machine is already Halted: `tick()` changes nothing and returns the
  latched error (10_state.md R51, 60_exceptions.md R158). Safe: the spec gives that tick no effect (log 2). -/
  | halted (latched : Option Error)
  deriving DecidableEq, Repr

/-- How a step refuses. No instruction of this model is refused. -/
inductive Refusal where
  /-- Raised by an arm of `exec` whose instruction has no meaning yet; no arm raises it. Safe. -/
  | notModelled (mnemonic : String)
  deriving DecidableEq, Repr

/-- `fb[px][py]`, 64 columns of 32 pixels, true for a set pixel (10_state.md R32). -/
abbrev Framebuffer := Vector (Vector Bool 32) 64

/-- The architectural state of 10_state.md R40, under the names of 00_scope.md R12. -/
structure State where
  /-- V0 to VF (10_state.md R19). -/
  V : Vector Byte 16
  /-- The index register, never masked (10_state.md R23). -/
  I : Word
  /-- The program counter (10_state.md R24). -/
  pc : Word
  /-- The stack depth, 0 to 16 (10_state.md R27). -/
  sp : Fin 17
  /-- The return addresses (10_state.md R27). -/
  stack : Vector Word 16
  /-- The delay timer (10_state.md R29). -/
  DT : Byte
  /-- The sound timer (10_state.md R29). -/
  ST : Byte
  /-- Memory in the canonical form of Memory.lean (10_state.md R30; log 6). -/
  mem : List Host.Cell
  /-- The framebuffer (10_state.md R32). -/
  fb : Framebuffer
  /-- The keypad, true for a pressed key (10_state.md R33). -/
  key : Vector Bool 16
  /-- Running or Halted (10_state.md R34). -/
  run : RunState
  /-- The destination register of a pending Fx0A (10_state.md R35). -/
  await : Option Nibble
  /-- The error latch (10_state.md R36). -/
  err : Option Error
  /-- displayDirty of the last tick (10_state.md R37). -/
  dirty : Bool
  /-- The model's own: how many random bytes have been drawn (log 3). -/
  draws : Nat
  /-- The model's own: the parameters of 00_scope.md R8, which nothing writes (log 4). -/
  cfg : Config
  deriving DecidableEq, Repr

/-- The machine right after `reset()` (70_reset_and_hazards.md R173, R174), which is also its state at construction
(R170), with the default parameters. Memory lists nothing: an unlisted address reads as the reset contents. -/
def State.reset : State where
  V := Vector.replicate 16 0
  I := 0
  pc := programStart
  sp := 0
  stack := Vector.replicate 16 0
  DT := 0
  ST := 0
  mem := []
  fb := Vector.replicate 64 (Vector.replicate 32 false)
  key := Vector.replicate 16 false
  run := .running
  await := none
  err := none
  dirty := false
  draws := 0
  cfg := defaultConfig

end Sys2Proof.Machine
end

