-- ==== Sys2Proof/Machine/Memory.lean ====
section
/-! DEFINITION. memory_4k (10_state.md R43): the reset contents, reading and writing a byte, the canonical form. Addresses
are natural numbers, checked and never wrapped (20_memory.md R62). -/

namespace Sys2Proof.Machine

/-- The reset contents of address `a`, which is what an unlisted address reads as: the font table at 0x050 to 0x09F,
zero elsewhere (10_state.md R30, R31; log 6). -/
def resetByte (font : FontTable) (a : Nat) : Byte :=
  if fontBase ≤ a ∧ a < fontEnd then
    (font.toList.getD ((a - fontBase) / 5) (Vector.replicate 5 0)).toList.getD ((a - fontBase) % 5) 0
  else 0

/-- `a ≤ 0xFFF` (20_memory.md R62). -/
def inMemory (a : Nat) : Bool := decide (a < memSize)

def Memory.read (font : FontTable) : List Host.Cell → Nat → Byte
  | [], a => resetByte font a
  | (b, v) :: rest, a => if a = b then v else Memory.read font rest a

/-- Puts `v` at `a`. Writing the reset contents removes the entry, which keeps the canonical form. -/
def Memory.write (font : FontTable) : List Host.Cell → Nat → Byte → List Host.Cell
  | [], a, v => if v = resetByte font a then [] else [(a, v)]
  | (b, u) :: rest, a, v =>
    if a < b then (if v = resetByte font a then (b, u) :: rest else (a, v) :: (b, u) :: rest)
    else if a = b then (if v = resetByte font a then rest else (a, v) :: rest)
    else (b, u) :: Memory.write font rest a v

/-- Writes the bytes at `a`, `a + 1`, …, each one a byte access at an ascending address (20_memory.md R65). -/
def Memory.writeList (font : FontTable) : List Host.Cell → Nat → List Byte → List Host.Cell
  | m, _, [] => m
  | m, a, v :: vs => Memory.writeList font (Memory.write font m a v) (a + 1) vs

/-- The canonical form, from address `lo` on: addresses strictly rising and in memory, no entry equal to the reset
contents. -/
def Memory.wfFrom (font : FontTable) : Nat → List Host.Cell → Bool
  | _, [] => true
  | lo, (a, v) :: rest =>
    decide (lo ≤ a) && inMemory a && decide (v ≠ resetByte font a) && Memory.wfFrom font (a + 1) rest

def Memory.wf (font : FontTable) (m : List Host.Cell) : Bool := Memory.wfFrom font 0 m

end Sys2Proof.Machine
end

