-- ==== Sys2Proof/Machine/Ops.lean ====
section
/-! DEFINITION. The named operations over State, grouped as the sub-blocks of 10_state.md R43 to R50, and entering a fault,
the one shared operation of 60_exceptions.md R155. There is no return from a fault to stand beside it: only `reset()`
leaves Halted (60_exceptions.md R159, 70_reset_and_hazards.md R172; Machine/Transactions.lean). -/

namespace Sys2Proof.Machine

abbrev Result := Host.Outcome State Fault Refusal

/-! ### register_file_16x8 (10_state.md R44) -/

def State.reg (s : State) (x : Nibble) : Byte := s.V[x.toNat]'x.isLt

def State.setReg (s : State) (x : Nibble) (v : Byte) : State := { s with V := s.V.set x.toNat v x.isLt }

def State.setI (s : State) (v : Word) : State := { s with I := v }

/-! ### program_counter (10_state.md R45) -/

def State.setPc (s : State) (v : Word) : State := { s with pc := v }

/-- `(pc + k) mod 2^16`. -/
def State.advance (s : State) (k : Word) : State := s.setPc (s.pc + k)

/-- The pc update of a skip: +4 when the condition holds, else +2 (40_control_flow.md R96). -/
def State.skipIf (s : State) (c : Bool) : State := s.advance (if c then skipLen else instrLen)

/-! ### stack_16x16 (10_state.md R46) -/

def State.setStack (s : State) (depth : Fin 17) (entries : Vector Word 16) : State :=
  { s with sp := depth, stack := entries }

/-- `none` is StackOverflow: sp = 16, nothing changes. -/
def State.push (s : State) (v : Word) : Option State :=
  if h : s.sp.val < 16 then
    some (s.setStack ⟨s.sp.val + 1, by omega⟩ (s.stack.set s.sp.val v h))
  else none

/-- `none` is StackUnderflow: sp = 0, nothing changes. The popped entry keeps its value (10_state.md R27; log 23). -/
def State.pop (s : State) : Option (Word × State) :=
  if h : 0 < s.sp.val then
    some (s.stack[s.sp.val - 1]'(by omega), s.setStack ⟨s.sp.val - 1, by omega⟩ s.stack)
  else none

/-! ### memory_4k (10_state.md R43) -/

/-- The byte memory holds at `a`; only used after a bounds check. -/
def State.readByte (s : State) (a : Nat) : Byte := Memory.read s.cfg.fontGlyphs s.mem a

def State.setMem (s : State) (m : List Host.Cell) : State := { s with mem := m }

/-- Writes the bytes at `a`, `a + 1`, …; only used after a bounds check. -/
def State.storeBytes (s : State) (a : Nat) (vs : List Byte) : State :=
  s.setMem (Memory.writeList s.cfg.fontGlyphs s.mem a vs)

/-- `MemRead(a, 1)`; `none` is OutOfBounds (00_scope.md R13). -/
def State.memRead (s : State) (a : Nat) : Option Byte := if inMemory a then some (s.readByte a) else none

/-! ### delay_sound_timer_8bit (10_state.md R47) -/

def State.setDT (s : State) (v : Byte) : State := { s with DT := v }

def State.setST (s : State) (v : Byte) : State := { s with ST := v }

/-- One decrement toward zero, never below it (60_exceptions.md R163). -/
def countDown (v : Byte) : Byte := if v = 0 then 0 else v - 1

/-! ### framebuffer_64x32 (10_state.md R48) -/

def blankScreen : Framebuffer := Vector.replicate 64 (Vector.replicate 32 false)

def State.setFb (s : State) (f : Framebuffer) : State := { s with fb := f }

def State.setDirty (s : State) (d : Bool) : State := { s with dirty := d }

/-- Column `px`, row `py`, both reduced mod 64 and mod 32 by the caller (10_state.md R48). -/
def Framebuffer.pixel (f : Framebuffer) (px : Fin 64) (py : Fin 32) : Bool := f[px.val][py.val]

/-- Flips the pixel; the Bool says that it was 1 and is now 0 (10_state.md R48). -/
def Framebuffer.xorPixel (f : Framebuffer) (px : Fin 64) (py : Fin 32) : Framebuffer × Bool :=
  (f.set px.val (f[px.val].set py.val (!f.pixel px py)), f.pixel px py)

/-! ### keypad (10_state.md R33) and the key wait (R35) -/

def State.keyDown (s : State) (k : Nibble) : Bool := s.key[k.toNat]'k.isLt

def State.setKeyState (s : State) (k : Nibble) (p : Bool) : State := { s with key := s.key.set k.toNat p k.isLt }

def State.setAwait (s : State) (a : Option Nibble) : State := { s with await := a }

/-! ### The random source (00_scope.md R13) -/

/-- The byte the next draw gives: free (log 3). -/
def State.randomByte (s : State) : Byte := Config.randomByte s.draws

/-- The counter after one draw, so that the next draw is another free byte. -/
def State.countDraw (s : State) : State := { s with draws := s.draws + 1 }

/-! ### fetch_decode_execute_fsm: entering a fault (60_exceptions.md R155) -/

/-- `err` keeps the first error; the machine is Halted; nothing else changes (60_exceptions.md R155, R156). -/
def State.halt (s : State) (e : Error) : State := { s with err := s.err.or (some e), run := .halted }

/-- `raise E`: the instruction writes nothing of its own and the machine enters Halted. -/
def raise (e : Error) (s : State) : Result := .next (s.halt e)

end Sys2Proof.Machine
end

