-- ==== Sys2Proof/Machine/Operands.lean ====
section
/-! DEFINITION. The operand forms (30_encoding.md R81, R82): address immediates, the jump target of Bnnn, the source of a
shift, the memory operand at I, the key named by a register, the glyph address, the decimal digits. -/

namespace Sys2Proof.Machine

/-- `zext_16(nnn)` (30_encoding.md R81). -/
def addressOf (nnn : Addr12) : Word := nnn.setWidth 16

/-- `zext_16(v)` (00_scope.md R11). -/
def zext16 (v : Byte) : Word := v.setWidth 16

/-- `zext_16(nnn) + zext_16(V0)`: always V0, not masked (40_control_flow.md R101; log 10). -/
def State.jumpV0Target (s : State) (nnn : Addr12) : Word := addressOf nnn + zext16 (s.reg 0)

/-- The register 8xy6 and 8xyE shift (41_alu.md R117, R119). -/
def State.shiftOperand (s : State) (x y : Nibble) : Byte :=
  match s.cfg.shiftSource with
  | .vx => s.reg x
  | .vy => s.reg y

/-- The check of a memory operand of `count` bytes at I, made before any write: no byte, or the highest address,
computed without wrap, at most 0xFFF (42_index_memory.md R125, 43_display.md R136; log 10, log 17). -/
def State.spanInBounds (s : State) (count : Nat) : Bool :=
  count == 0 || inMemory (s.I.toNat + (count - 1))

/-- The key that the register names; `none`, OutOfBounds, for a value above 0x0F (44_keys_timers.md R140; log 15). -/
def State.keyOperand (s : State) (x : Nibble) : Option Nibble :=
  if (s.reg x).toNat ≤ 0x0F then some ((s.reg x).setWidth 4) else none

/-- `FONT_BASE + 5 · (v & 0x0F)` (42_index_memory.md R128). -/
def glyphAddress (v : Byte) : Word := BitVec.ofNat 16 (fontBase + 5 * (v &&& 0x0F).toNat)

/-- Hundreds, tens, ones (42_index_memory.md R130). -/
def decimalDigits (v : Byte) : List Byte :=
  [BitVec.ofNat 8 (v.toNat / 100), BitVec.ofNat 8 (v.toNat / 10 % 10), BitVec.ofNat 8 (v.toNat % 10)]

/-- V0 to Vx, `x + 1` bytes (42_index_memory.md R131). -/
def State.regsThrough (s : State) (x : Nibble) : List Byte := s.V.toList.take (x.toNat + 1)

/-- V0 to Vx read from memory at I, I + 1, … (42_index_memory.md R132). -/
def State.loadRegs (s : State) (x : Nibble) : State :=
  { s with V := Vector.ofFn fun i : Fin 16 => if i.val ≤ x.toNat then s.readByte (s.I.toNat + i.val) else s.V[i.val] }

/-- `I := (I + x + 1) mod 2^16` when LOADSTORE_INCREMENTS_I (42_index_memory.md R131, R132). -/
def State.moveIndex (s : State) (x : Nibble) : State :=
  if s.cfg.loadStoreIncrementsI then s.setI (s.I + BitVec.ofNat 16 (x.toNat + 1)) else s

end Sys2Proof.Machine
end

