-- ==== Sys2Proof/Machine/Flags.lean ====
section
/-! DEFINITION. VF: the flag values 0x00 and 0x01 (41_alu.md R108) and the order in which a result and a flag are written. -/

namespace Sys2Proof.Machine

/-- VF is register 15 (10_state.md R21). -/
def VF : Nibble := 0xF

def flagByte (b : Bool) : Byte := if b then 1 else 0

/-- VF of 8xy4: the 9-bit sum exceeds 255 (41_alu.md R115). -/
def carryFlag (a b : Byte) : Byte := flagByte (decide (a.toNat + b.toNat > 255))

/-- VF of `a - b` in 8xy5 and 8xy7: NOT borrow (41_alu.md R116, R118). -/
def notBorrowFlag (a b : Byte) : Byte := flagByte (decide (a.toNat ≥ b.toNat))

/-- VF of 8xy6: the bit shifted out to the right (41_alu.md R117). -/
def shiftedOutRight (a : Byte) : Byte := a &&& 1

/-- VF of 8xyE: the bit shifted out to the left (41_alu.md R119). -/
def shiftedOutLeft (a : Byte) : Byte := (a >>> 7) &&& 1

def State.setVF (s : State) (f : Byte) : State := s.setReg VF f

/-- The result, then the flag last, so that VF holds the flag when x = F (41_alu.md R108, R122; log 12). -/
def State.writeResultThenFlag (s : State) (x : Nibble) (r f : Byte) : State := (s.setReg x r).setVF f

/-- The result of 8xy1, 8xy2, 8xy3, then VF := 0 when LOGIC_RESETS_VF (41_alu.md R112 to R114). -/
def State.writeLogicResult (s : State) (x : Nibble) (r : Byte) : State :=
  if s.cfg.logicResetsVF then s.writeResultThenFlag x r 0 else s.setReg x r

end Sys2Proof.Machine
end

