-- ==== Sys2Proof/Machine/Alu.lean ====
section
/-! DEFINITION. Register arithmetic and logic (41_alu.md). Every instruction here ends with pc + 2 and raises nothing. -/

namespace Sys2Proof.Machine

/-- LD Vx, kk (41_alu.md R109). -/
def execLdImm (x : Nibble) (kk : Byte) (s : State) : Result := .next ((s.setReg x kk).advance instrLen)

/-- ADD Vx, kk (41_alu.md R110): wraps, no flag. -/
def execAddImm (x : Nibble) (kk : Byte) (s : State) : Result :=
  .next ((s.setReg x (s.reg x + kk)).advance instrLen)

/-- LD Vx, Vy (41_alu.md R111). -/
def execLdReg (x y : Nibble) (s : State) : Result := .next ((s.setReg x (s.reg y)).advance instrLen)

/-- OR Vx, Vy (41_alu.md R112). -/
def execOr (x y : Nibble) (s : State) : Result :=
  .next ((s.writeLogicResult x (s.reg x ||| s.reg y)).advance instrLen)

/-- AND Vx, Vy (41_alu.md R113). -/
def execAnd (x y : Nibble) (s : State) : Result :=
  .next ((s.writeLogicResult x (s.reg x &&& s.reg y)).advance instrLen)

/-- XOR Vx, Vy (41_alu.md R114). -/
def execXor (x y : Nibble) (s : State) : Result :=
  .next ((s.writeLogicResult x (s.reg x ^^^ s.reg y)).advance instrLen)

/-- ADD Vx, Vy (41_alu.md R115): VF = carry. -/
def execAddReg (x y : Nibble) (s : State) : Result :=
  .next ((s.writeResultThenFlag x (s.reg x + s.reg y) (carryFlag (s.reg x) (s.reg y))).advance instrLen)

/-- SUB Vx, Vy (41_alu.md R116): VF = NOT borrow of Vx − Vy. -/
def execSub (x y : Nibble) (s : State) : Result :=
  .next ((s.writeResultThenFlag x (s.reg x - s.reg y) (notBorrowFlag (s.reg x) (s.reg y))).advance instrLen)

/-- SHR Vx, Vy (41_alu.md R117): VF = the bit shifted out. -/
def execShr (x y : Nibble) (s : State) : Result :=
  .next ((s.writeResultThenFlag x (s.shiftOperand x y >>> 1)
    (shiftedOutRight (s.shiftOperand x y))).advance instrLen)

/-- SUBN Vx, Vy (41_alu.md R118): VF = NOT borrow of Vy − Vx. -/
def execSubn (x y : Nibble) (s : State) : Result :=
  .next ((s.writeResultThenFlag x (s.reg y - s.reg x) (notBorrowFlag (s.reg y) (s.reg x))).advance instrLen)

/-- SHL Vx, Vy (41_alu.md R119): VF = the bit shifted out. -/
def execShl (x y : Nibble) (s : State) : Result :=
  .next ((s.writeResultThenFlag x (s.shiftOperand x y <<< 1)
    (shiftedOutLeft (s.shiftOperand x y))).advance instrLen)

/-- RND Vx, kk (41_alu.md R120): the random byte is free (log 3). -/
def execRnd (x : Nibble) (kk : Byte) (s : State) : Result :=
  .next ((s.countDraw.setReg x (s.randomByte &&& kk)).advance instrLen)

end Sys2Proof.Machine
end

