-- ==== Sys2Proof/Machine/ControlFlow.lean ====
section
/-! DEFINITION. Control flow (40_control_flow.md): SYS, RET, JP, CALL, JP V0 and the skips on registers. -/

namespace Sys2Proof.Machine

/-- SYS (40_control_flow.md R97): a no-op; the historical machine-code call is not run (log 22). -/
def execSys (_nnn : Addr12) (s : State) : Result := .next (s.advance instrLen)

/-- RET (40_control_flow.md R98): the popped address exactly, no +2 (R94). -/
def execRet (s : State) : Result :=
  match s.pop with
  | some (target, t) => .next (t.setPc target)
  | none => raise .stackUnderflow s

/-- JP (40_control_flow.md R99). -/
def execJp (nnn : Addr12) (s : State) : Result := .next (s.setPc (addressOf nnn))

/-- CALL (40_control_flow.md R100): pushes the address of the next instruction. -/
def execCall (nnn : Addr12) (s : State) : Result :=
  match s.push (s.pc + instrLen) with
  | some t => .next (t.setPc (addressOf nnn))
  | none => raise .stackOverflow s

/-- JP V0 (40_control_flow.md R101). -/
def execJpV0 (nnn : Addr12) (s : State) : Result := .next (s.setPc (s.jumpV0Target nnn))

/-- SE Vx, kk (40_control_flow.md R102). -/
def execSeImm (x : Nibble) (kk : Byte) (s : State) : Result := .next (s.skipIf (s.reg x == kk))

/-- SNE Vx, kk (40_control_flow.md R103). -/
def execSneImm (x : Nibble) (kk : Byte) (s : State) : Result := .next (s.skipIf (s.reg x != kk))

/-- SE Vx, Vy (40_control_flow.md R104). -/
def execSeReg (x y : Nibble) (s : State) : Result := .next (s.skipIf (s.reg x == s.reg y))

/-- SNE Vx, Vy (40_control_flow.md R105). -/
def execSneReg (x y : Nibble) (s : State) : Result := .next (s.skipIf (s.reg x != s.reg y))

end Sys2Proof.Machine
end

