-- ==== Sys2Proof/Machine/Display.lean ====
section
/-! DEFINITION. The display (43_display.md): CLS and DRW. -/

namespace Sys2Proof.Machine

/-- CLS (43_display.md R134): dirty is set even when the screen was clear. -/
def execCls (s : State) : Result := .next (((s.setFb blankScreen).setDirty true).advance instrLen)

/-- Column `(cx + c) mod 64` (43_display.md R136). -/
def wrapColumn (cx : Byte) (c : Nat) : Fin 64 := Fin.ofNat 64 (cx.toNat + c)

/-- Row `(cy + r) mod 32` (43_display.md R136). -/
def wrapRow (cy : Byte) (r : Nat) : Fin 32 := Fin.ofNat 32 (cy.toNat + r)

/-- Bit `7 - c` of a sprite byte is its pixel at column offset `c`: bit 7 leftmost (43_display.md R135; log 13). -/
def spriteBit (b : Byte) (c : Nat) : Bool := b.getLsbD (7 - c)

/-- One sprite pixel, XORed in; the Bool gathers whether a set pixel was erased (43_display.md R136). -/
def drawPixel (cx cy b : Byte) (r : Nat) (acc : Framebuffer × Bool) (c : Nat) : Framebuffer × Bool :=
  if spriteBit b c then
    let flipped := Framebuffer.xorPixel acc.1 (wrapColumn cx c) (wrapRow cy r)
    (flipped.1, acc.2 || flipped.2)
  else acc

/-- One sprite row, columns 0 to 7 (43_display.md R136). -/
def drawRow (cx cy b : Byte) (r : Nat) (acc : Framebuffer × Bool) : Framebuffer × Bool :=
  (List.range 8).foldl (drawPixel cx cy b r) acc

/-- The screen and the collision after the `n` rows of the sprite at I (43_display.md R136). -/
def State.drawSprite (s : State) (cx cy : Byte) (n : Nat) : Framebuffer × Bool :=
  (List.range n).foldl (fun acc r => drawRow cx cy (s.readByte (s.I.toNat + r)) r acc) (s.fb, false)

/-- DRW Vx, Vy, n (43_display.md R136): VF is always written, after the coordinates are read (log 14 for n = 0). -/
def execDrw (x y n : Nibble) (s : State) : Result :=
  if s.spanInBounds n.toNat then
    let drawn := s.drawSprite (s.reg x) (s.reg y) n.toNat
    .next ((((s.setFb drawn.1).setVF (flagByte drawn.2)).setDirty true).advance instrLen)
  else raise .outOfBounds s

end Sys2Proof.Machine
end

