-- ==== Sys2Proof/Machine/IndexMemory.lean ====
section
/-! DEFINITION. The index register and memory (42_index_memory.md). A memory instruction checks every address before it
writes anything (R125). -/

namespace Sys2Proof.Machine

/-- LD I, nnn (42_index_memory.md R126). -/
def execLdI (nnn : Addr12) (s : State) : Result := .next ((s.setI (addressOf nnn)).advance instrLen)

/-- ADD I, Vx (42_index_memory.md R127): 16 bits, no flag (log 10). -/
def execAddIVx (x : Nibble) (s : State) : Result :=
  .next ((s.setI (s.I + zext16 (s.reg x))).advance instrLen)

/-- LD F, Vx (42_index_memory.md R128). -/
def execLdFVx (x : Nibble) (s : State) : Result := .next ((s.setI (glyphAddress (s.reg x))).advance instrLen)

/-- LD B, Vx (42_index_memory.md R130). -/
def execLdBVx (x : Nibble) (s : State) : Result :=
  if s.spanInBounds 3 then
    .next ((s.storeBytes s.I.toNat (decimalDigits (s.reg x))).advance instrLen)
  else raise .outOfBounds s

/-- LD [I], Vx (42_index_memory.md R131). -/
def execLdMemVx (x : Nibble) (s : State) : Result :=
  if s.spanInBounds (x.toNat + 1) then
    .next (((s.storeBytes s.I.toNat (s.regsThrough x)).moveIndex x).advance instrLen)
  else raise .outOfBounds s

/-- LD Vx, [I] (42_index_memory.md R132). -/
def execLdVxMem (x : Nibble) (s : State) : Result :=
  if s.spanInBounds (x.toNat + 1) then .next (((s.loadRegs x).moveIndex x).advance instrLen)
  else raise .outOfBounds s

end Sys2Proof.Machine
end

