-- ==== Sys2Proof/Machine/KeysTimers.lean ====
section
/-! DEFINITION. Keypad and timers (44_keys_timers.md). The end of a key wait is the host transaction `setKey`, in
Machine/Transactions.lean. -/

namespace Sys2Proof.Machine

/-- SKP Vx (44_keys_timers.md R142). -/
def execSkp (x : Nibble) (s : State) : Result :=
  match s.keyOperand x with
  | some k => .next (s.skipIf (s.keyDown k))
  | none => raise .outOfBounds s

/-- SKNP Vx (44_keys_timers.md R143). -/
def execSknp (x : Nibble) (s : State) : Result :=
  match s.keyOperand x with
  | some k => .next (s.skipIf (!s.keyDown k))
  | none => raise .outOfBounds s

/-- LD Vx, DT (44_keys_timers.md R144). -/
def execLdVxDt (x : Nibble) (s : State) : Result := .next ((s.setReg x s.DT).advance instrLen)

/-- LD Vx, K (44_keys_timers.md R147): the wait begins; pc still addresses this instruction (log 16). -/
def execLdVxK (x : Nibble) (s : State) : Result := .next (s.setAwait (some x))

/-- LD DT, Vx (44_keys_timers.md R145). -/
def execLdDtVx (x : Nibble) (s : State) : Result := .next ((s.setDT (s.reg x)).advance instrLen)

/-- LD ST, Vx (44_keys_timers.md R146). -/
def execLdStVx (x : Nibble) (s : State) : Result := .next ((s.setST (s.reg x)).advance instrLen)

end Sys2Proof.Machine
end

