-- ==== Sys2Proof/Machine/Cycle.lean ====
section
/-! DEFINITION. The cycle of 10_state.md R51: fetch, decode, execute; and placing a word where the next cycle fetches it. -/

namespace Sys2Proof.Machine

/-- The word at pc and pc + 1, big-endian; `none` is OutOfBounds (10_state.md R52, 20_memory.md R63). -/
def State.fetch (s : State) : Option Word :=
  match s.memRead s.pc.toNat, s.memRead (s.pc.toNat + 1) with
  | some hi, some lo => some (wordOfBytes hi lo)
  | _, _ => none

/-- Fetch, decode and execute of a core that runs and awaits no key (10_state.md R51 to R53). -/
def fetchDecodeExecute (s : State) : Result :=
  match s.fetch with
  | none => raise .outOfBounds s
  | some w =>
    match decode w with
    | .ok i => exec i s
    | .error _ => raise .illegalOpcode s

/-- `tick()` (10_state.md R51). In Halted it returns the latched error and changes nothing: the outcome `fault`
(log 2). While a key is awaited it only clears `dirty`. -/
def cycle (s : State) : Result :=
  match s.run with
  | .halted => .fault (.halted s.err)
  | .running =>
    match s.await with
    | some _ => .next (s.setDirty false)
    | none => fetchDecodeExecute (s.setDirty false)

/-- A state whose next cycle fetches: Running, no key awaited, no error, and pc where two bytes can be read
(10_state.md R51, R52). A state that already fetches is unchanged (log 7). -/
def State.readyToFetch (s : State) : State :=
  { s with
    run := .running, await := none, err := none,
    pc := if inMemory (s.pc.toNat + 1) then s.pc else programStart }

/-- `w` at pc and pc + 1, high byte first (30_encoding.md R78). -/
def State.placeWord (s : State) (w : Word) : State :=
  let t := s.readyToFetch
  t.storeBytes t.pc.toNat [highByte w, lowByte w]

end Sys2Proof.Machine
end

