-- ==== Sys2Proof/Machine/Transactions.lean ====
section
/-! DEFINITION. The host's five transactions (10_state.md R56) and the outputs it reads (R37 to R39). Each transaction is
one atomic step of the machine, issued in any order (R18; log 1); `tick` is `step` with the value it returns. -/

namespace Sys2Proof.Machine

/-- `tick()` with what it returns, `none` for Ok (10_state.md R42, R51): in Halted the latched error, state unchanged;
else the error of a cycle that has just halted the machine (log 8). -/
def tick (s : State) : State × Option Error :=
  match step s with
  | .next t =>
    match t.run with
    | .halted => (t, t.err)
    | .running => (t, none)
  | .fault (.halted latched) => (s, latched)
  | .refused _ => (s, none)

/-- `tickTimers()` (60_exceptions.md R163): frozen in Halted (R158), working while a key is awaited (10_state.md R60). -/
def tickTimers (s : State) : State :=
  match s.run with
  | .halted => s
  | .running => (s.setDT (countDown s.DT)).setST (countDown s.ST)

/-- A fresh press of `k` completes a pending Fx0A: Vx is set, pc moves past it, the wait ends (10_state.md R57). -/
def completeKeyWait (k : Nibble) (s : State) : State :=
  match s.await with
  | some x => ((s.setReg x (k.setWidth 8)).advance instrLen).setAwait none
  | none => s

/-- `setKey(k, pressed)` (10_state.md R57). A key already down is no fresh press; in Halted only the key changes
(log 16, log 18). -/
def setKey (k : Nibble) (pressed : Bool) (s : State) : State :=
  if s.run = .running ∧ pressed = true ∧ s.keyDown k = false then
    completeKeyWait k (s.setKeyState k pressed)
  else s.setKeyState k pressed

/-- `loadRom(bytes)` (10_state.md R58): too long a ROM writes nothing and enters Halted; otherwise the bytes stand from
0x200 on, in any run state. The second part is what it returns (60_exceptions.md R155). -/
def loadRom (bytes : List Byte) (s : State) : State × Option Error :=
  if bytes.length > romMax then (s.halt .romTooLarge, some .romTooLarge)
  else (s.storeBytes programStart.toNat bytes, none)

/-- `reset()` (70_reset_and_hazards.md R173). The parameters are the machine's and the random source is the host's: both
stay (log 3, log 4). -/
def hostReset (s : State) : State := { State.reset with draws := s.draws, cfg := s.cfg }

inductive Transaction where
  | tick
  | tickTimers
  | setKey (k : Nibble) (pressed : Bool)
  | loadRom (bytes : List Byte)
  | reset
  deriving DecidableEq, Repr

/-- One transaction: the state after it and what it returns, `none` for Ok (10_state.md R42, R56, R59). -/
def transact (t : Transaction) (s : State) : State × Option Error :=
  match t with
  | .tick => Sys2Proof.Machine.tick s
  | .tickTimers => (Sys2Proof.Machine.tickTimers s, none)
  | .setKey k pressed => (Sys2Proof.Machine.setKey k pressed s, none)
  | .loadRom bytes => Sys2Proof.Machine.loadRom bytes s
  | .reset => (hostReset s, none)

/-- A finite sequence of transactions (70_reset_and_hazards.md R186). -/
def transactAll : List Transaction → State → State
  | [], s => s
  | t :: ts, s => transactAll ts (transact t s).1

/-- `soundActive` (10_state.md R38). -/
def State.soundActive (s : State) : Bool := s.ST != 0

/-- `frame`, the read-only snapshot (10_state.md R39). -/
def State.frame (s : State) : Framebuffer := s.fb

/-- `halted` (10_state.md R39). -/
def State.isHalted (s : State) : Bool := s.run == .halted

/-- The number of an error, where one is needed (60_exceptions.md R150). -/
def Error.code : Error → Nat
  | .romTooLarge => 0
  | .outOfBounds => 1
  | .stackOverflow => 2
  | .stackUnderflow => 3
  | .illegalOpcode => 4

end Sys2Proof.Machine
end

