-- ==== Sys2Proof/Safety.lean ====
section
/-! DEFINITION. What claims are stated with: the parts of State, a frame over them, a safe run, and the machine's
invariants. -/

namespace Sys2Proof.Machine

/-- The pieces of State, so that a frame says by name which of them an instruction may change. -/
inductive Part where
  | V | I | pc | stack | DT | ST | mem | fb | key | run | await | err | dirty | draws | cfg
  deriving DecidableEq, Repr

/-- The part has the same value in both states. Memory is compared byte by byte, at every address; the stack is the
depth and all 16 entries. -/
def Part.same (s t : State) : Part → Prop
  | .V => ∀ r : Nibble, t.reg r = s.reg r
  | .I => t.I = s.I
  | .pc => t.pc = s.pc
  | .stack => t.sp = s.sp ∧ ∀ j : Fin 16, t.stack[j.val] = s.stack[j.val]
  | .DT => t.DT = s.DT
  | .ST => t.ST = s.ST
  | .mem => ∀ a : Nat, t.readByte a = s.readByte a
  | .fb => ∀ (px : Fin 64) (py : Fin 32), t.fb.pixel px py = s.fb.pixel px py
  | .key => ∀ k : Nibble, t.keyDown k = s.keyDown k
  | .run => t.run = s.run
  | .await => t.await = s.await
  | .err => t.err = s.err
  | .dirty => t.dirty = s.dirty
  | .draws => t.draws = s.draws
  | .cfg => t.cfg = s.cfg

/-- Every part outside `ps` is unchanged from `s` to `t`. -/
def OnlyChanges (ps : List Part) (s t : State) : Prop := ∀ p : Part, p ∉ ps → p.same s t

/-- Every register outside `rs` is unchanged from `s` to `t`. -/
def OnlyRegs (rs : List Nibble) (s t : State) : Prop := ∀ r : Nibble, r ∉ rs → t.reg r = s.reg r

/-- Every byte outside `a, …, a + len − 1` is unchanged from `s` to `t`. -/
def OnlyBytes (a len : Nat) (s t : State) : Prop := ∀ b : Nat, (b < a ∨ a + len ≤ b) → t.readByte b = s.readByte b

/-- Fault entry (60_exceptions.md R155, R156): Halted, the FIRST error latched, nothing else changed. -/
def EntersHalted (e : Error) (s t : State) : Prop :=
  t.run = .halted ∧ t.err = (if s.err = none then some e else s.err) ∧ OnlyChanges [.run, .err] s t

/-- The fault `e` is raised: the machine is Halted, and a latch that was empty holds `e` (60_exceptions.md R155). -/
def Raises (e : Error) (s t : State) : Prop := t.run = .halted ∧ (s.err = none → t.err = some e)

/-- A run without a fault: Running before and after every transaction (10_state.md R34). -/
def SafeRun : List Transaction → State → Prop
  | [], s => s.run = .running
  | t :: ts, s => s.run = .running ∧ SafeRun ts (transact t s).1

/-- `err ≠ none` exactly when Halted (10_state.md R36). -/
def ErrIffHalted (s : State) : Prop := s.err ≠ none ↔ s.run = .halted

/-- Memory is in canonical form (log 6). -/
def MemCanonical (s : State) : Prop := Memory.wf s.cfg.fontGlyphs s.mem = true

/-- pc ≤ 0x10FE, return addresses ≤ 0x1000, and a pending Fx0A stands where it was fetched (10_state.md R26). -/
def PcBounded (s : State) : Prop :=
  s.pc.toNat ≤ 0x10FE ∧ (∀ j : Fin 16, (s.stack[j.val]).toNat ≤ 0x1000) ∧ (s.await ≠ none → s.pc.toNat ≤ 0xFFE)

/-- The machine's invariant. -/
def Inv (s : State) : Prop := ErrIffHalted s ∧ MemCanonical s ∧ PcBounded s

/-- The execute-time fault of an instruction, if it has one: the table of 60_exceptions.md R150 with the conditions of
R151 and R152, in natural-number arithmetic. -/
def executeFault (i : Instr) (s : State) : Option Error :=
  match i with
  | .ret => if s.sp.val = 0 then some .stackUnderflow else none
  | .call _ => if s.sp.val = 16 then some .stackOverflow else none
  | .drw _ _ n => if 1 ≤ n.toNat ∧ s.I.toNat + n.toNat - 1 > 0xFFF then some .outOfBounds else none
  | .skp x => if (s.reg x).toNat > 0x0F then some .outOfBounds else none
  | .sknp x => if (s.reg x).toNat > 0x0F then some .outOfBounds else none
  | .ldBVx _ => if s.I.toNat + 2 > 0xFFF then some .outOfBounds else none
  | .ldMemVx x => if s.I.toNat + x.toNat > 0xFFF then some .outOfBounds else none
  | .ldVxMem x => if s.I.toNat + x.toNat > 0xFFF then some .outOfBounds else none
  | .cls => none
  | .sys _ => none
  | .jp _ => none
  | .seImm _ _ => none
  | .sneImm _ _ => none
  | .seReg _ _ => none
  | .ldImm _ _ => none
  | .addImm _ _ => none
  | .ldReg _ _ => none
  | .or _ _ => none
  | .and _ _ => none
  | .xor _ _ => none
  | .addReg _ _ => none
  | .sub _ _ => none
  | .shr _ _ => none
  | .subn _ _ => none
  | .shl _ _ => none
  | .sneReg _ _ => none
  | .ldI _ => none
  | .jpV0 _ => none
  | .rnd _ _ => none
  | .ldVxDt _ => none
  | .ldVxK _ => none
  | .ldDtVx _ => none
  | .ldStVx _ => none
  | .addIVx _ => none
  | .ldFVx _ => none

/-- The key that a byte of at most 0x0F names is pressed (44_keys_timers.md R142). -/
def NamedKeyDown (s : State) (v : Byte) : Prop := ∃ k : Nibble, k.toNat = v.toNat ∧ s.keyDown k = true

/-- The pc after an instruction that does not fault, as 10_state.md R25 lists it. -/
def PcAfter (i : Instr) (s t : State) : Prop :=
  let skipsWhen (c : Prop) : Prop := (c → t.pc = s.pc + 4) ∧ (¬c → t.pc = s.pc + 2)
  match i with
  | .seImm x kk => skipsWhen (s.reg x = kk)
  | .sneImm x kk => skipsWhen (s.reg x ≠ kk)
  | .seReg x y => skipsWhen (s.reg x = s.reg y)
  | .sneReg x y => skipsWhen (s.reg x ≠ s.reg y)
  | .skp x => skipsWhen (NamedKeyDown s (s.reg x))
  | .sknp x => skipsWhen (¬NamedKeyDown s (s.reg x))
  | .jp nnn => t.pc.toNat = nnn.toNat
  | .call nnn => t.pc.toNat = nnn.toNat
  | .jpV0 nnn => t.pc.toNat = nnn.toNat + (s.reg 0).toNat
  | .ret => ∃ j : Fin 16, s.sp.val = j.val + 1 ∧ t.pc = s.stack[j.val]
  | .ldVxK _ => t.pc = s.pc
  | .cls | .sys _ | .ldImm _ _ | .addImm _ _ | .ldReg _ _ | .or _ _ | .and _ _ | .xor _ _ | .addReg _ _
  | .sub _ _ | .shr _ _ | .subn _ _ | .shl _ _ | .ldI _ | .rnd _ _ | .drw _ _ _ | .ldVxDt _ | .ldDtVx _
  | .ldStVx _ | .addIVx _ | .ldFVx _ | .ldBVx _ | .ldMemVx _ | .ldVxMem _ => t.pc = s.pc + 2

/-- Pixel (px, py) is under a 1 bit of the n-byte sprite at I drawn from (cx, cy), with wraparound on both axes
(43_display.md R135, R136). -/
def SpriteCovers (s : State) (cx cy : Byte) (n : Nat) (px : Fin 64) (py : Fin 32) : Prop :=
  ∃ r c : Nat, r < n ∧ c < 8 ∧ px.val = (cx.toNat + c) % 64 ∧ py.val = (cy.toNat + r) % 32 ∧
    (s.readByte (s.I.toNat + r)).getLsbD (7 - c) = true

end Sys2Proof.Machine
end

