-- ==== Sys2Proof/Certificates/Slice0/Obligations.lean ====
section
/-! DEFINITION. The statements for the provers. Each docstring names the rule or the section of spec/ it formalises; a
statement that rests on a decision or an inference the spec marks as its own says so. -/

open Sys2Proof Sys2Proof.Machine

/-! ### Encoding -/

/-- Words written out from the patterns of 30_encoding.md section 4 decode to the instructions they stand for (the 8xy_
nibbles rest on the spec's own derivation there, log 25). -/
def Obligations.WrittenWordsDecode : Prop :=
  decode 0x00E0 = .ok .cls ∧ decode 0x00EE = .ok .ret ∧ decode 0x0123 = .ok (.sys 0x123) ∧
  decode 0x1234 = .ok (.jp 0x234) ∧ decode 0x3310 = .ok (.seImm 3 0x10) ∧ decode 0x8125 = .ok (.sub 1 2) ∧
  decode 0xD125 = .ok (.drw 1 2 5) ∧ decode 0xE59E = .ok (.skp 5) ∧ decode 0xF30A = .ok (.ldVxK 3) ∧
  decode 0xFF55 = .ok (.ldMemVx 0xF)

/-- The decoder reads back every operand of every well-formed instruction (30_encoding.md sections 2 and 4). -/
def Obligations.DecodeReadsBackEncode : Prop :=
  ∀ i : Instr, i.wellFormed = true → decode (encode i) = .ok i

/-- Every word that decodes is the word of the instruction it decodes to, a well-formed one: each word has one meaning
(30_encoding.md sections 4 and 5). -/
def Obligations.EncodeGivesBackDecodedWord : Prop :=
  ∀ (w : Word) (i : Instr), decode w = .ok i → encode i = w ∧ i.wellFormed = true

/-- The illegal encodings are exactly the words that no row of the opcode map matches, and every other word decodes
(30_encoding.md section 5; the spec marks the list as derived). -/
def Obligations.IllegalWordsMatchNoRow : Prop :=
  ∀ w : Word,
    (decode w = .error (.illegalOpcode w) ↔ ∀ r ∈ opcodeRows, r.matches w = false) ∧
    ((∃ i, decode w = .ok i) ↔ ∃ r ∈ opcodeRows, r.matches w = true)

/-- Rows are disjoint except that 00E0 and 00EE also match the SYS row (30_encoding.md section 4). -/
def Obligations.OpcodeRowsDisjointButForSys : Prop :=
  ∀ w : Word, ∀ r ∈ opcodeRows, ∀ q ∈ opcodeRows, r.matches w = true → q.matches w = true → r ≠ q →
    (w = 0x00E0 ∧ (r = rowOf (.sys 0) ∧ q = rowOf .cls ∨ r = rowOf .cls ∧ q = rowOf (.sys 0))) ∨
    (w = 0x00EE ∧ (r = rowOf (.sys 0) ∧ q = rowOf .ret ∨ r = rowOf .ret ∧ q = rowOf (.sys 0)))

/-! ### The cycle -/

/-- What a step of a running machine that awaits no key does. If the two bytes at pc decode to `i` it executes `i`, and
around that it only clears `dirty`. If no row matches them, or pc is 0xFFF or more, it clears `dirty`, enters Halted and
writes nothing else: no register, no byte of memory, no stack entry, pc neither (10_state.md section 14,
60_exceptions.md section 2; clearing `dirty` is the spec's decision D23, the precise fault D18, the first error kept D19;
log 17, log 18, log 20). -/
def Obligations.StepRunsDecodedInstruction : Prop :=
  ∀ s : State, s.run = .running → s.await = none →
    (∀ i, s.pc.toNat ≤ 0xFFE →
      decode (wordOfBytes (s.readByte s.pc.toNat) (s.readByte (s.pc.toNat + 1))) = .ok i →
      step s = exec i (s.setDirty false)) ∧
    (s.pc.toNat ≤ 0xFFE →
      (∀ r ∈ opcodeRows,
        r.matches (wordOfBytes (s.readByte s.pc.toNat) (s.readByte (s.pc.toNat + 1))) = false) →
      ∃ t, step s = .next t ∧ EntersHalted .illegalOpcode (s.setDirty false) t ∧ t.dirty = false ∧
        OnlyChanges [.run, .err, .dirty] s t) ∧
    (0xFFF ≤ s.pc.toNat →
      ∃ t, step s = .next t ∧ EntersHalted .outOfBounds (s.setDirty false) t ∧ t.dirty = false ∧
        OnlyChanges [.run, .err, .dirty] s t)

/-- 10_state.md R52: the fetch reads two bytes big-endian up to pc = 0xFFE and faults from 0xFFF on, pc kept. The rest of
what a faulted fetch leaves alone is in StepRunsDecodedInstruction. -/
def Obligations.FetchReadsTwoBytesOrFaults : Prop :=
  ∀ s : State, s.run = .running → s.await = none →
    (s.pc.toNat ≤ 0xFFE → ∃ w : Word, s.fetch = some w ∧
      w.toNat = 256 * (s.readByte s.pc.toNat).toNat + (s.readByte (s.pc.toNat + 1)).toNat) ∧
    (0xFFF ≤ s.pc.toNat → s.fetch = none ∧
      ∃ t, step s = .next t ∧ Raises .outOfBounds s t ∧ t.pc = s.pc)

/-- 60_exceptions.md R153: a word that no row matches raises IllegalOpcode before anything of it executes (the tick
clears `dirty` whatever the word is). -/
def Obligations.IllegalWordHaltsUnexecuted : Prop :=
  ∀ s : State, s.run = .running → s.await = none → s.pc.toNat ≤ 0xFFE →
    (∀ r ∈ opcodeRows,
      r.matches (wordOfBytes (s.readByte s.pc.toNat) (s.readByte (s.pc.toNat + 1))) = false) →
    ∃ t, step s = .next t ∧ Raises .illegalOpcode s t ∧ OnlyChanges [.run, .err, .dirty] s t

/-- While a key is awaited a tick changes nothing but `dirty` (44_keys_timers.md section 3; the spec's decision D17,
log 16). -/
def Obligations.AwaitingTickOnlyClearsDirty : Prop :=
  ∀ s : State, s.run = .running → s.await ≠ none →
    ∃ t, step s = .next t ∧ t.dirty = false ∧ OnlyChanges [.dirty] s t

/-- A Halted machine is frozen: a tick returns the latched error and changes nothing, the timers stay, setKey changes
its key alone, loadRom leaves it Halted with the same error (60_exceptions.md section 2; the spec's decision D19,
log 18). That the tick is the outcome `fault` is the model's choice (log 2). -/
def Obligations.HaltedMachineIsFrozen : Prop :=
  ∀ s : State, s.run = .halted →
    step s = .fault (.halted s.err) ∧ tick s = (s, s.err) ∧ tickTimers s = s ∧
    (∀ k p, (setKey k p s).keyDown k = p ∧ (∀ q, q ≠ k → (setKey k p s).keyDown q = s.keyDown q) ∧
      OnlyChanges [.key] s (setKey k p s)) ∧
    (∀ bytes, (loadRom bytes s).1.run = .halted ∧ (s.err ≠ none → (loadRom bytes s).1.err = s.err))

/-- A step is never refused, and it faults only in Halted, with the latched error (60_exceptions.md section 2; the
outcome `fault` is the model's choice, log 2). -/
def Obligations.StepFaultsOnlyInHalted : Prop :=
  ∀ s : State, (∀ f, step s = .fault f ↔ s.run = .halted ∧ f = .halted s.err) ∧ (∀ r, step s ≠ .refused r)

/-- The execute-time faults are exactly those of the spec's table, and faults are precise: an instruction whose condition
holds enters Halted and writes nothing else; every other instruction, of any kind, completes without touching the run
state or the error latch (60_exceptions.md sections 1 and 2; decisions D15, D18). -/
def Obligations.ExecuteFaultsAreTheTableAndPrecise : Prop :=
  ∀ (i : Instr) (s : State),
    (∀ e, executeFault i s = some e → ∃ t, exec i s = .next t ∧ EntersHalted e s t) ∧
    (executeFault i s = none → ∃ t, exec i s = .next t ∧ t.run = s.run ∧ t.err = s.err)

/-- Every instruction writes pc as 10_state.md section 4 lists it, one that faults leaves it, and the awaited key press
moves pc past the Fx0A (that the target of Bnnn is not masked is the spec's decision D7, the fault of Ex9E and ExA1 is
D15, the end of the wait is D16; log 10, log 15, log 16). -/
def Obligations.EveryInstructionUpdatesPcAsListed : Prop :=
  ∀ (i : Instr) (s : State),
    (executeFault i s = none → ∃ t, exec i s = .next t ∧ PcAfter i s t) ∧
    (executeFault i s ≠ none → ∃ t, exec i s = .next t ∧ t.pc = s.pc) ∧
    (∀ k, s.run = .running → s.await ≠ none → s.keyDown k = false → (setKey k true s).pc = s.pc + 2)

/-! ### Control flow -/

/-- SYS is a no-op (40_control_flow.md section 2; the spec's decision D26, log 22). -/
def Obligations.SysOnlyAdvancesPc : Prop :=
  ∀ (nnn : Addr12) (s : State), ∃ t, exec (.sys nnn) s = .next t ∧ t.pc = s.pc + 2 ∧ OnlyChanges [.pc] s t

/-- RET pops: pc is the popped entry exactly, sp one less, every entry kept (40_control_flow.md section 2; that the entry
is kept is the spec's decision D31, log 23). -/
def Obligations.RetPopsReturnAddress : Prop :=
  ∀ (s : State) (j : Fin 16), s.sp.val = j.val + 1 →
    ∃ t, exec .ret s = .next t ∧ t.sp.val = j.val ∧ t.pc = s.stack[j.val] ∧
      (∀ q : Fin 16, t.stack[q.val] = s.stack[q.val]) ∧ OnlyChanges [.pc, .stack] s t

/-- 60_exceptions.md R152: CALL at depth 16 raises StackOverflow before the push, RET on the empty stack
StackUnderflow. -/
def Obligations.FullCallAndEmptyRetFault : Prop :=
  ∀ s : State,
    (s.sp.val = 16 → ∀ nnn,
      ∃ t, exec (.call nnn) s = .next t ∧ Raises .stackOverflow s t ∧ OnlyChanges [.run, .err] s t) ∧
    (s.sp.val = 0 → ∃ t, exec .ret s = .next t ∧ Raises .stackUnderflow s t ∧ OnlyChanges [.run, .err] s t)

/-- 40_control_flow.md R99: the word, the target exactly, no other effect. -/
def Obligations.JpSetsPcExactly : Prop :=
  ∀ (nnn : Addr12) (s : State),
    decode (formatNNN 0x1 nnn) = .ok (.jp nnn) ∧
    ∃ t, exec (.jp nnn) s = .next t ∧ t.pc.toNat = nnn.toNat ∧ OnlyChanges [.pc] s t

/-- 40_control_flow.md R100: the address of the next instruction is pushed, pc is nnn exactly; at depth 16 nothing
changes but the fault. -/
def Obligations.CallPushesNextAddress : Prop :=
  ∀ (nnn : Addr12) (s : State),
    (∀ j : Fin 16, s.sp.val = j.val →
      ∃ t, exec (.call nnn) s = .next t ∧ t.sp.val = j.val + 1 ∧
        (t.stack[j.val]).toNat = (s.pc.toNat + 2) % 65536 ∧
        (∀ q : Fin 16, q ≠ j → t.stack[q.val] = s.stack[q.val]) ∧
        t.pc.toNat = nnn.toNat ∧ OnlyChanges [.pc, .stack] s t) ∧
    (s.sp.val = 16 →
      ∃ t, exec (.call nnn) s = .next t ∧ Raises .stackOverflow s t ∧ OnlyChanges [.run, .err] s t) ∧
    decode (formatNNN 0x2 nnn) = .ok (.call nnn)

/-- JP V0: the sum is neither masked nor wrapped, and the register is always V0 (40_control_flow.md section 2; not
masking is the spec's decision D7, log 10). -/
def Obligations.JpV0AddsV0Unmasked : Prop :=
  ∀ (nnn : Addr12) (s : State),
    ∃ t, exec (.jpV0 nnn) s = .next t ∧ t.pc.toNat = nnn.toNat + (s.reg 0).toNat ∧ OnlyChanges [.pc] s t

/-- 40_control_flow.md R102, R103: the words, the condition, no other effect. -/
def Obligations.SkipsOnRegisterAndByte : Prop :=
  ∀ (x : Nibble) (kk : Byte) (s : State),
    (∃ t, exec (.seImm x kk) s = .next t ∧ OnlyChanges [.pc] s t ∧
      t.pc.toNat = (s.pc.toNat + if (s.reg x).toNat = kk.toNat then 4 else 2) % 65536) ∧
    (∃ t, exec (.sneImm x kk) s = .next t ∧ OnlyChanges [.pc] s t ∧
      t.pc.toNat = (s.pc.toNat + if (s.reg x).toNat = kk.toNat then 2 else 4) % 65536) ∧
    decode (formatXKK 0x3 x kk) = .ok (.seImm x kk) ∧ decode (formatXKK 0x4 x kk) = .ok (.sneImm x kk)

/-- 40_control_flow.md R104, R105: the words, the condition, no other effect, and the words 5xyN and 9xyN that are
illegal. -/
def Obligations.SkipsOnTwoRegisters : Prop :=
  ∀ (x y : Nibble) (s : State),
    (∃ t, exec (.seReg x y) s = .next t ∧ OnlyChanges [.pc] s t ∧
      t.pc.toNat = (s.pc.toNat + if (s.reg x).toNat = (s.reg y).toNat then 4 else 2) % 65536) ∧
    (∃ t, exec (.sneReg x y) s = .next t ∧ OnlyChanges [.pc] s t ∧
      t.pc.toNat = (s.pc.toNat + if (s.reg x).toNat = (s.reg y).toNat then 2 else 4) % 65536) ∧
    (decode (formatXYN 0x5 x y 0) = .ok (.seReg x y) ∧ decode (formatXYN 0x9 x y 0) = .ok (.sneReg x y)) ∧
    (∀ n : Nibble, n ≠ 0 → decode (formatXYN 0x5 x y n) = .error (.illegalOpcode (formatXYN 0x5 x y n)) ∧
      decode (formatXYN 0x9 x y n) = .error (.illegalOpcode (formatXYN 0x9 x y n)))

/-- Stack round trip over two steps: a CALL whose target holds 00EE comes back to the instruction after it, at the same
depth (40_control_flow.md section 3, a law the spec marks as derived). -/
def Obligations.CallThenRetComesBack : Prop :=
  ∀ (s : State) (nnn : Addr12), s.run = .running → s.await = none → s.pc.toNat ≤ 0xFFE → nnn.toNat ≤ 0xFFE →
    s.sp.val < 16 →
    decode (wordOfBytes (s.readByte s.pc.toNat) (s.readByte (s.pc.toNat + 1))) = .ok (.call nnn) →
    s.readByte nnn.toNat = 0x00 → s.readByte (nnn.toNat + 1) = 0xEE →
    ∃ t u, step s = .next t ∧ step t = .next u ∧ u.pc = s.pc + 2 ∧ u.sp = s.sp ∧
      OnlyChanges [.pc, .stack, .dirty] s u

/-! ### Arithmetic and logic -/

/-- 41_alu.md R109: the word, the byte written (x = F as data), no other effect. -/
def Obligations.LoadByteIntoRegister : Prop :=
  ∀ (x : Nibble) (kk : Byte) (s : State),
    decode (formatXKK 0x6 x kk) = .ok (.ldImm x kk) ∧
    ∃ t, exec (.ldImm x kk) s = .next t ∧ t.reg x = kk ∧ OnlyRegs [x] s t ∧ t.pc = s.pc + 2 ∧
      OnlyChanges [.V, .pc] s t

/-- 41_alu.md R110: the sum mod 256, no flag; x = F receives it as data. -/
def Obligations.AddByteWrapsWithoutFlag : Prop :=
  ∀ (x : Nibble) (kk : Byte) (s : State),
    decode (formatXKK 0x7 x kk) = .ok (.addImm x kk) ∧
    ∃ t, exec (.addImm x kk) s = .next t ∧ (t.reg x).toNat = ((s.reg x).toNat + kk.toNat) % 256 ∧
      OnlyRegs [x] s t ∧ t.pc = s.pc + 2 ∧ OnlyChanges [.V, .pc] s t

/-- 41_alu.md R111: the word, the register copied, no other effect. -/
def Obligations.LoadRegisterFromRegister : Prop :=
  ∀ (x y : Nibble) (s : State),
    decode (formatXYN 0x8 x y 0x0) = .ok (.ldReg x y) ∧
    ∃ t, exec (.ldReg x y) s = .next t ∧ t.reg x = s.reg y ∧ OnlyRegs [x] s t ∧ t.pc = s.pc + 2 ∧
      OnlyChanges [.V, .pc] s t

/-- OR, AND, XOR bit by bit; VF is zeroed after the result exactly when LOGIC_RESETS_VF (41_alu.md section 2; the
parameter is the spec's decision D10, log 4). -/
def Obligations.LogicOperationsBitwise : Prop :=
  ∀ (x y : Nibble) (s : State) (i : Instr) (f : Bool → Bool → Bool),
    (i = .or x y ∧ f = Bool.or ∨ i = .and x y ∧ f = Bool.and ∨ i = .xor x y ∧ f = Bool.xor) →
    ∃ t, exec i s = .next t ∧
      (s.cfg.logicResetsVF = true → t.reg VF = 0) ∧
      (s.cfg.logicResetsVF = false ∨ x ≠ VF →
        ∀ b, b < 8 → (t.reg x).getLsbD b = f ((s.reg x).getLsbD b) ((s.reg y).getLsbD b)) ∧
      (s.cfg.logicResetsVF = false → OnlyRegs [x] s t) ∧ OnlyRegs [x, VF] s t ∧
      t.pc = s.pc + 2 ∧ OnlyChanges [.V, .pc] s t

/-- ADD Vx, Vy: the sum mod 256 and VF the carry; with x = F, VF ends as the carry (41_alu.md section 2; that order is
the spec's decision D12, log 12). -/
def Obligations.AddRegistersSetsCarry : Prop :=
  ∀ (x y : Nibble) (s : State),
    ∃ t, exec (.addReg x y) s = .next t ∧
      (x ≠ VF → (t.reg x).toNat = ((s.reg x).toNat + (s.reg y).toNat) % 256) ∧
      t.reg VF = (if (s.reg x).toNat + (s.reg y).toNat > 255 then 1 else 0) ∧
      OnlyRegs [x, VF] s t ∧ t.pc = s.pc + 2 ∧ OnlyChanges [.V, .pc] s t

/-- SUB and SUBN: the difference mod 256 and VF NOT borrow; with x = F, VF ends as the flag (41_alu.md section 2;
decision D12, log 12; for SUBN the flag is the spec's own derivation). -/
def Obligations.SubtractionsSetNotBorrow : Prop :=
  ∀ (x y : Nibble) (s : State),
    (∃ t, exec (.sub x y) s = .next t ∧
      (x ≠ VF → (t.reg x).toNat = (256 + (s.reg x).toNat - (s.reg y).toNat) % 256) ∧
      t.reg VF = (if (s.reg x).toNat ≥ (s.reg y).toNat then 1 else 0) ∧
      OnlyRegs [x, VF] s t ∧ t.pc = s.pc + 2 ∧ OnlyChanges [.V, .pc] s t) ∧
    (∃ t, exec (.subn x y) s = .next t ∧
      (x ≠ VF → (t.reg x).toNat = (256 + (s.reg y).toNat - (s.reg x).toNat) % 256) ∧
      t.reg VF = (if (s.reg y).toNat ≥ (s.reg x).toNat then 1 else 0) ∧
      OnlyRegs [x, VF] s t ∧ t.pc = s.pc + 2 ∧ OnlyChanges [.V, .pc] s t)

/-- SHR and SHL of the register that SHIFT_SOURCE names; VF the bit shifted out (41_alu.md section 2; decisions D9 and
D12, log 4, log 12). -/
def Obligations.ShiftsSetTheBitShiftedOut : Prop :=
  ∀ (x y : Nibble) (s : State) (src : Byte),
    (s.cfg.shiftSource = .vx ∧ src = s.reg x ∨ s.cfg.shiftSource = .vy ∧ src = s.reg y) →
    (∃ t, exec (.shr x y) s = .next t ∧
      (x ≠ VF → (t.reg x).toNat = src.toNat / 2) ∧ (t.reg VF).toNat = src.toNat % 2 ∧
      OnlyRegs [x, VF] s t ∧ t.pc = s.pc + 2 ∧ OnlyChanges [.V, .pc] s t) ∧
    (∃ t, exec (.shl x y) s = .next t ∧
      (x ≠ VF → (t.reg x).toNat = 2 * src.toNat % 256) ∧ (t.reg VF).toNat = src.toNat / 128 ∧
      OnlyRegs [x, VF] s t ∧ t.pc = s.pc + 2 ∧ OnlyChanges [.V, .pc] s t)

/-- RND: Vx is the free random byte AND kk, whatever that byte is, and the draw is counted so that the next is another
free byte (41_alu.md section 2; decision D25; the counter is the model's, log 3). -/
def Obligations.RandomByteIsMasked : Prop :=
  ∀ (x : Nibble) (kk : Byte) (s : State),
    ∃ t, exec (.rnd x kk) s = .next t ∧ t.reg x = Config.randomByte s.draws &&& kk ∧ t.draws = s.draws + 1 ∧
      OnlyRegs [x] s t ∧ t.pc = s.pc + 2 ∧ OnlyChanges [.V, .pc, .draws] s t

/-! ### Index register and memory -/

/-- 42_index_memory.md R126: the word, I, no other effect. -/
def Obligations.LoadIndexImmediate : Prop :=
  ∀ (nnn : Addr12) (s : State),
    decode (formatNNN 0xA nnn) = .ok (.ldI nnn) ∧
    ∃ t, exec (.ldI nnn) s = .next t ∧ t.I.toNat = nnn.toNat ∧ t.pc = s.pc + 2 ∧ OnlyChanges [.I, .pc] s t

/-- ADD I, Vx: 16-bit sum, no flag, no fault (42_index_memory.md section 2; decision D6, log 10). -/
def Obligations.AddRegisterToIndex : Prop :=
  ∀ (x : Nibble) (s : State),
    ∃ t, exec (.addIVx x) s = .next t ∧ t.I.toNat = (s.I.toNat + (s.reg x).toNat) % 65536 ∧
      t.pc = s.pc + 2 ∧ OnlyChanges [.I, .pc] s t

/-- LD F, Vx: the glyph address of the low nibble (42_index_memory.md section 2; FONT_BASE is decision D2, log 9). -/
def Obligations.LoadGlyphAddress : Prop :=
  ∀ (x : Nibble) (s : State),
    ∃ t, exec (.ldFVx x) s = .next t ∧ t.I.toNat = 0x050 + 5 * ((s.reg x).toNat % 16) ∧
      t.pc = s.pc + 2 ∧ OnlyChanges [.I, .pc] s t

/-- 42_index_memory.md R130: hundreds, tens and ones at I, I + 1, I + 2, in a memory of canonical form; OutOfBounds from
I = 0xFFE on. -/
def Obligations.StoreDecimalDigits : Prop :=
  ∀ (x : Nibble) (s : State),
    (MemCanonical s → s.I.toNat + 2 ≤ 0xFFF →
      ∃ t, exec (.ldBVx x) s = .next t ∧
        (t.readByte s.I.toNat).toNat = (s.reg x).toNat / 100 ∧
        (t.readByte (s.I.toNat + 1)).toNat = (s.reg x).toNat / 10 % 10 ∧
        (t.readByte (s.I.toNat + 2)).toNat = (s.reg x).toNat % 10 ∧
        OnlyBytes s.I.toNat 3 s t ∧ t.pc = s.pc + 2 ∧ OnlyChanges [.mem, .pc] s t) ∧
    (s.I.toNat + 2 > 0xFFF →
      ∃ t, exec (.ldBVx x) s = .next t ∧ Raises .outOfBounds s t) ∧
    decode (formatXKK 0xF x 0x33) = .ok (.ldBVx x)

/-- LD [I], Vx: V0 to Vx at I to I + x, in a memory of canonical form; I moves on exactly when LOADSTORE_INCREMENTS_I
(42_index_memory.md section 2; decision D11, log 4). -/
def Obligations.StoreRegistersThroughX : Prop :=
  ∀ (x : Nibble) (s : State), MemCanonical s → s.I.toNat + x.toNat ≤ 0xFFF →
    ∃ t, exec (.ldMemVx x) s = .next t ∧
      (∀ q : Nibble, q.toNat ≤ x.toNat → t.readByte (s.I.toNat + q.toNat) = s.reg q) ∧
      OnlyBytes s.I.toNat (x.toNat + 1) s t ∧
      t.I.toNat = (if s.cfg.loadStoreIncrementsI = true then (s.I.toNat + x.toNat + 1) % 65536 else s.I.toNat) ∧
      t.pc = s.pc + 2 ∧ OnlyChanges [.mem, .I, .pc] s t

/-- LD Vx, [I]: V0 to Vx from I to I + x; I moves on exactly when LOADSTORE_INCREMENTS_I (42_index_memory.md section 2;
decision D11, log 4). -/
def Obligations.LoadRegistersThroughX : Prop :=
  ∀ (x : Nibble) (s : State), s.I.toNat + x.toNat ≤ 0xFFF →
    ∃ t, exec (.ldVxMem x) s = .next t ∧
      (∀ q : Nibble, q.toNat ≤ x.toNat → t.reg q = s.readByte (s.I.toNat + q.toNat)) ∧
      (∀ q : Nibble, x.toNat < q.toNat → t.reg q = s.reg q) ∧
      t.I.toNat = (if s.cfg.loadStoreIncrementsI = true then (s.I.toNat + x.toNat + 1) % 65536 else s.I.toNat) ∧
      t.pc = s.pc + 2 ∧ OnlyChanges [.V, .I, .pc] s t

/-- A memory operand or a key index out of range enters Halted and writes nothing (60_exceptions.md section 1,
42_index_memory.md section 1; decisions D15, D18, log 15, log 17). -/
def Obligations.OutOfRangeOperandsFault : Prop :=
  ∀ (x y n : Nibble) (s : State),
    (s.I.toNat + 2 > 0xFFF → ∃ t, exec (.ldBVx x) s = .next t ∧ EntersHalted .outOfBounds s t) ∧
    (s.I.toNat + x.toNat > 0xFFF →
      (∃ t, exec (.ldMemVx x) s = .next t ∧ EntersHalted .outOfBounds s t) ∧
      (∃ t, exec (.ldVxMem x) s = .next t ∧ EntersHalted .outOfBounds s t)) ∧
    (1 ≤ n.toNat → s.I.toNat + n.toNat - 1 > 0xFFF →
      ∃ t, exec (.drw x y n) s = .next t ∧ EntersHalted .outOfBounds s t) ∧
    ((s.reg x).toNat > 0x0F →
      (∃ t, exec (.skp x) s = .next t ∧ EntersHalted .outOfBounds s t) ∧
      (∃ t, exec (.sknp x) s = .next t ∧ EntersHalted .outOfBounds s t))

/-- Fx55, then anything that writes neither I nor the stored bytes nor a parameter, then Fx65 restores V0 to Vx, under
LOADSTORE_INCREMENTS_I = false (42_index_memory.md section 3, a law the spec marks as derived). -/
def Obligations.StoreThenLoadRestoresRegisters : Prop :=
  ∀ (x : Nibble) (s t u : State), MemCanonical s → s.cfg.loadStoreIncrementsI = false →
    s.I.toNat + x.toNat ≤ 0xFFF → exec (.ldMemVx x) s = .next t → u.I = t.I →
    (∀ a, s.I.toNat ≤ a → a ≤ s.I.toNat + x.toNat → u.readByte a = t.readByte a) →
    ∃ v, exec (.ldVxMem x) u = .next v ∧ ∀ q : Nibble, q.toNat ≤ x.toNat → v.reg q = s.reg q

/-! ### Display -/

/-- 43_display.md R134: the word, every pixel clear, `dirty` set, VF and the rest unchanged. -/
def Obligations.ClsClearsEveryPixel : Prop :=
  decode 0x00E0 = .ok .cls ∧
  ∀ s : State, ∃ t, exec .cls s = .next t ∧ (∀ px py, t.fb.pixel px py = false) ∧ t.dirty = true ∧
    t.pc = s.pc + 2 ∧ OnlyChanges [.fb, .dirty, .pc] s t

/-- DRW flips exactly the pixels under a 1 bit of the sprite, wrapped on both axes, and VF says whether one of them was
set (43_display.md section 1; bit order and n = 0 are decisions D13, D14, log 13, log 14). -/
def Obligations.DrwFlipsCoveredPixels : Prop :=
  ∀ (x y n : Nibble) (s : State), (n.toNat = 0 ∨ s.I.toNat + n.toNat - 1 ≤ 0xFFF) →
    ∃ t, exec (.drw x y n) s = .next t ∧
      (∀ px py, SpriteCovers s (s.reg x) (s.reg y) n.toNat px py → t.fb.pixel px py = !s.fb.pixel px py) ∧
      (∀ px py, ¬SpriteCovers s (s.reg x) (s.reg y) n.toNat px py → t.fb.pixel px py = s.fb.pixel px py) ∧
      ((∃ px py, SpriteCovers s (s.reg x) (s.reg y) n.toNat px py ∧ s.fb.pixel px py = true) → t.reg VF = 1) ∧
      ((¬∃ px py, SpriteCovers s (s.reg x) (s.reg y) n.toNat px py ∧ s.fb.pixel px py = true) → t.reg VF = 0) ∧
      OnlyRegs [VF] s t ∧ t.dirty = true ∧ t.pc = s.pc + 2 ∧ OnlyChanges [.V, .fb, .dirty, .pc] s t

/-- Drawing the same sprite twice at the same place restores the screen, and the second draw sets VF when a pixel under
the sprite was clear before the first, as on a clear screen; between the draws anything may happen but a change of I, of
the sprite's bytes, of the screen or of the coordinates (43_display.md sections 1 and 2; the law is one the spec marks as
derived, and log 26 says why its last clause needs the clear pixel). -/
def Obligations.DrawingTwiceRestoresTheScreen : Prop :=
  ∀ (x y n x' y' : Nibble) (s t u : State), (n.toNat = 0 ∨ s.I.toNat + n.toNat - 1 ≤ 0xFFF) →
    exec (.drw x y n) s = .next t → u.I = s.I → u.reg x' = s.reg x → u.reg y' = s.reg y →
    (∀ r, r < n.toNat → u.readByte (s.I.toNat + r) = s.readByte (s.I.toNat + r)) →
    (∀ px py, u.fb.pixel px py = t.fb.pixel px py) →
    ∃ v, exec (.drw x' y' n) u = .next v ∧ (∀ px py, v.fb.pixel px py = s.fb.pixel px py) ∧
      ((∃ px py, SpriteCovers s (s.reg x) (s.reg y) n.toNat px py ∧ s.fb.pixel px py = false) → v.reg VF = 1)

/-- The last clause of the spec's collision law, word for word: the second of two equal draws sets VF whenever the sprite
has a 1 bit. Expected to FAIL: when every pixel under the sprite was set, the first draw erases them all and the second
erases none, by the pseudocode of Dxyn (43_display.md sections 1 and 2; log 26). -/
def Obligations.SecondOfTwoDrawsAlwaysCollides : Prop :=
  ∀ (x y n x' y' : Nibble) (s t u v : State), (n.toNat = 0 ∨ s.I.toNat + n.toNat - 1 ≤ 0xFFF) →
    exec (.drw x y n) s = .next t → u.I = s.I → u.reg x' = s.reg x → u.reg y' = s.reg y →
    (∀ r, r < n.toNat → u.readByte (s.I.toNat + r) = s.readByte (s.I.toNat + r)) →
    (∀ px py, u.fb.pixel px py = t.fb.pixel px py) → exec (.drw x' y' n) u = .next v →
    (∃ r c, r < n.toNat ∧ c < 8 ∧ (s.readByte (s.I.toNat + r)).getLsbD c = true) → v.reg VF = 1

/-! ### Keypad and timers -/

/-- SKP and SKNP read the key that Vx names (44_keys_timers.md sections 1 and 2; the range check is decision D15,
log 15). -/
def Obligations.KeySkipsReadTheNamedKey : Prop :=
  ∀ (x k : Nibble) (s : State), (s.reg x).toNat = k.toNat →
    (∃ t, exec (.skp x) s = .next t ∧ OnlyChanges [.pc] s t ∧
      t.pc.toNat = (s.pc.toNat + if s.keyDown k = true then 4 else 2) % 65536) ∧
    (∃ t, exec (.sknp x) s = .next t ∧ OnlyChanges [.pc] s t ∧
      t.pc.toNat = (s.pc.toNat + if s.keyDown k = true then 2 else 4) % 65536)

/-- 44_keys_timers.md R144: the word, Vx takes DT, DT itself and the rest unchanged. -/
def Obligations.ReadDelayTimer : Prop :=
  ∀ (x : Nibble) (s : State),
    decode (formatXKK 0xF x 0x07) = .ok (.ldVxDt x) ∧
    ∃ t, exec (.ldVxDt x) s = .next t ∧ t.reg x = s.DT ∧ OnlyRegs [x] s t ∧ t.pc = s.pc + 2 ∧
      OnlyChanges [.V, .pc] s t

/-- 44_keys_timers.md R145, R146: the timer takes Vx; with Fx18, soundActive is ST ≠ 0 at once. -/
def Obligations.WriteTimers : Prop :=
  ∀ (x : Nibble) (s : State),
    (∃ t, exec (.ldDtVx x) s = .next t ∧ t.DT = s.reg x ∧ t.pc = s.pc + 2 ∧ OnlyChanges [.DT, .pc] s t) ∧
    (∃ t, exec (.ldStVx x) s = .next t ∧ t.ST = s.reg x ∧ (t.soundActive = true ↔ s.reg x ≠ 0) ∧
      t.pc = s.pc + 2 ∧ OnlyChanges [.ST, .pc] s t) ∧
    decode (formatXKK 0xF x 0x15) = .ok (.ldDtVx x) ∧ decode (formatXKK 0xF x 0x18) = .ok (.ldStVx x)

/-- LD Vx, K begins the wait: await is x and nothing else changes, pc neither (44_keys_timers.md section 2; decision D16,
log 16). -/
def Obligations.KeyWaitBegins : Prop :=
  ∀ (x : Nibble) (s : State),
    ∃ t, exec (.ldVxK x) s = .next t ∧ t.await = some x ∧ OnlyChanges [.await] s t

/-- A fresh press while a key is awaited completes Fx0A; every other setKey changes its key alone (10_state.md
section 15; decisions D16, D19, log 16, log 18). -/
def Obligations.FreshPressCompletesTheWait : Prop :=
  ∀ (k : Nibble) (p : Bool) (s : State),
    ((setKey k p s).keyDown k = p ∧ ∀ q, q ≠ k → (setKey k p s).keyDown q = s.keyDown q) ∧
    (∀ x, s.run = .running → s.await = some x → p = true → s.keyDown k = false →
      ((setKey k p s).reg x).toNat = k.toNat ∧ OnlyRegs [x] s (setKey k p s) ∧
      (setKey k p s).pc = s.pc + 2 ∧ (setKey k p s).await = none ∧
      OnlyChanges [.key, .V, .pc, .await] s (setKey k p s)) ∧
    (s.run = .halted ∨ s.await = none ∨ p = false ∨ s.keyDown k = true → OnlyChanges [.key] s (setKey k p s))

/-- After n timer ticks in a row each timer has gone down by n, never below zero, also while a key is awaited, and
nothing else has changed (60_exceptions.md section 6, 44_keys_timers.md section 3, 10_state.md section 15). -/
def Obligations.TimersCountDownToZero : Prop :=
  ∀ (n : Nat) (s : State), s.run = .running →
    (transactAll (List.replicate n .tickTimers) s).DT.toNat = s.DT.toNat - n ∧
    (transactAll (List.replicate n .tickTimers) s).ST.toNat = s.ST.toNat - n ∧
    OnlyChanges [.DT, .ST] s (transactAll (List.replicate n .tickTimers) s)

/-! ### Reset and loading -/

/-- 70_reset_and_hazards.md R171: pc is 0x200, where programs are loaded; Running, no awaited key, no error; at
construction and after `reset()` from any state. -/
def Obligations.ResetEntersAt0x200 : Prop :=
  programStart.toNat = 0x200 ∧
  ∀ s : State, s = State.reset ∨ (∃ r, s = hostReset r) →
    s.pc.toNat = 0x200 ∧ s.run = .running ∧ s.await = none ∧ s.err = none

/-- `reset()` from any state, Halted and awaiting ones too: every register, the stack, the timers, the screen and the
keypad zero, memory zero but for the font (70_reset_and_hazards.md section 2; the values the source does not list are
decision D21, log 19; that the parameters stay is the model's choice, log 4). -/
def Obligations.ResetClearsEverything : Prop :=
  ∀ s : State,
    (∀ r, (hostReset s).reg r = 0) ∧ (hostReset s).I = 0 ∧ (hostReset s).sp.val = 0 ∧
    (∀ j : Fin 16, (hostReset s).stack[j.val] = 0) ∧ (hostReset s).DT = 0 ∧ (hostReset s).ST = 0 ∧
    (∀ px py, (hostReset s).fb.pixel px py = false) ∧ (∀ k, (hostReset s).keyDown k = false) ∧
    (hostReset s).dirty = false ∧ (hostReset s).cfg = s.cfg ∧
    (∀ (d : Fin 16) (j : Fin 5), (hostReset s).readByte (0x050 + 5 * d.val + j.val) = s.cfg.fontGlyphs[d.val][j.val]) ∧
    (∀ a, a < 0x050 ∨ 0x09F < a → (hostReset s).readByte a = 0)

/-- A ROM of up to 3584 bytes stands from 0x200 on (its last byte at 0xFFF when it has 3584) and nothing else changes; a
longer one raises RomTooLarge; no other transaction but a tick returns a fault (10_state.md section 15,
60_exceptions.md section 1). That a load is accepted in Halted too and leaves the machine Halted, and that a ROM too long
halts it, are the spec's decision D20 (log 18). -/
def Obligations.LoadRomPlacesBytesOrFaults : Prop :=
  ∀ (bytes : List Byte) (s : State),
    (MemCanonical s → bytes.length ≤ 3584 →
      (loadRom bytes s).2 = none ∧
      (∀ k (h : k < bytes.length), (loadRom bytes s).1.readByte (0x200 + k) = bytes[k]) ∧
      OnlyBytes 0x200 bytes.length s (loadRom bytes s).1 ∧ OnlyChanges [.mem] s (loadRom bytes s).1) ∧
    (bytes.length > 3584 →
      (loadRom bytes s).2 = some .romTooLarge ∧ Raises .romTooLarge s (loadRom bytes s).1) ∧
    (∀ t : Transaction, t ≠ .tick → (transact t s).2 ≠ none → ∃ rom, t = .loadRom rom ∧ rom.length > 3584)

/-- A ROM that is too long writes nothing: the length is checked first (10_state.md section 15; the spec's decisions D19,
D20, log 18). -/
def Obligations.FailedLoadWritesNothing : Prop :=
  ∀ (bytes : List Byte) (s : State), bytes.length > 3584 →
    EntersHalted .romTooLarge s (loadRom bytes s).1

/-! ### The whole machine -/

/-- Every step keeps the invariant: the error latch says Halted, memory is in canonical form, pc and every return
address stay within their bounds (10_state.md sections 4 and 10, inferences the spec marks as its own; log 6). -/
def Obligations.StepKeepsInvariant : Prop :=
  ∀ s t : State, Inv s → step s = .next t → Inv t

/-- Every sequence of host transactions, in any order, keeps the invariant (10_state.md sections 1, 4, 10, 15; the
canonical form of memory is the model's, log 6). -/
def Obligations.TransactionsKeepInvariant : Prop :=
  ∀ (ts : List Transaction) (s : State), Inv s → Inv (transactAll ts s)

/-- The invariant holds at reset (70_reset_and_hazards.md section 2). -/
def Obligations.ResetHasInvariant : Prop := Inv State.reset

/-- Only CALL and RET touch the stack (10_state.md section 5, a rule the spec marks as derived). -/
def Obligations.OnlyCallAndRetTouchTheStack : Prop :=
  ∀ (i : Instr) (s t : State), exec i s = .next t → i ≠ .ret → (∀ nnn, i ≠ .call nnn) → Part.stack.same s t

/-- Only CLS and DRW write the framebuffer or set `dirty`, and of the other transactions only `reset()` does
(43_display.md section 2, 10_state.md section 8). -/
def Obligations.OnlyClsAndDrwWriteTheScreen : Prop :=
  (∀ (i : Instr) (s t : State), exec i s = .next t → i ≠ .cls → (∀ x y n, i ≠ .drw x y n) →
    Part.fb.same s t ∧ t.dirty = s.dirty) ∧
  (∀ (tr : Transaction) (s : State), tr ≠ .tick → tr ≠ .reset →
    Part.fb.same s (transact tr s).1 ∧ (transact tr s).1.dirty = s.dirty)

/-- No instruction writes the keypad; only Fx15 writes DT, only Fx18 ST, only Fx0A begins a key wait, and only Fx33 and
Fx55 write memory (10_state.md sections 6, 9 and 10, 20_memory.md section 1). That the parameters stand in a field of
State which no instruction writes is the model's choice (log 4), and so is the counter of random draws, which only Cxkk
writes (log 3). -/
def Obligations.EachStateHasItsOwnWriters : Prop :=
  ∀ (i : Instr) (s t : State), exec i s = .next t →
    Part.key.same s t ∧ t.cfg = s.cfg ∧
    ((∀ x, i ≠ .ldDtVx x) → t.DT = s.DT) ∧ ((∀ x, i ≠ .ldStVx x) → t.ST = s.ST) ∧
    ((∀ x kk, i ≠ .rnd x kk) → t.draws = s.draws) ∧ ((∀ x, i ≠ .ldVxK x) → t.await = s.await) ∧
    ((∀ x, i ≠ .ldBVx x) → (∀ x, i ≠ .ldMemVx x) → Part.mem.same s t)

/-- After any tick of a running machine, `dirty` is true exactly when the tick executed CLS or DRW without a fault: no
key was awaited, the word was fetched, it decoded to one of the two, and the machine still runs. After a fetch fault, an
illegal word, a faulting DRW, any other instruction and a tick that awaits a key it is false (43_display.md section 2;
decision D23, log 20). -/
def Obligations.DirtyExactlyAfterADraw : Prop :=
  ∀ s t : State, s.run = .running → step s = .next t →
    (t.dirty = true ↔
      s.await = none ∧
      (∃ w i, s.fetch = some w ∧ decode w = .ok i ∧ (i = .cls ∨ ∃ x y n, i = .drw x y n)) ∧
      t.run = .running)

/-- From a state whose error latch says Halted, a tick returns what the latch holds after it, and Ok exactly when the
machine runs on (10_state.md sections 13 and 14; log 8). -/
def Obligations.TickReturnsTheFaultItRaised : Prop :=
  ∀ s : State, ErrIffHalted s →
    (tick s).2 = (tick s).1.err ∧ ((tick s).2 = none ↔ (tick s).1.run = .running)
end

