-- ==== Sys2Proof/Laws/Decode.lean ====
section
/-! SUPPORT. The fields of an encoded word, and a word rebuilt from its fields: one lemma per field and format of
30_encoding.md R79 and R80. -/

namespace Sys2Proof.Laws

open Sys2Proof

variable (op x y n : Nibble) (kk : Byte) (nnn : Addr12)

@[simp] theorem opField_formatNNN : opField (formatNNN op nnn) = op := by
  rw [opField, formatNNN, BitVec.extractLsb'_append_eq_of_le (by decide)]; exact BitVec.extractLsb'_eq_self

@[simp] theorem nnnField_formatNNN : nnnField (formatNNN op nnn) = nnn := by
  rw [nnnField, formatNNN, BitVec.extractLsb'_append_eq_of_add_le (by decide)]; exact BitVec.extractLsb'_eq_self

@[simp] theorem opField_formatXKK : opField (formatXKK op x kk) = op := by
  rw [opField, formatXKK, BitVec.extractLsb'_append_eq_of_le (by decide), BitVec.extractLsb'_append_eq_of_le (by decide)]
  exact BitVec.extractLsb'_eq_self

@[simp] theorem xField_formatXKK : xField (formatXKK op x kk) = x := by
  rw [xField, formatXKK, BitVec.extractLsb'_append_eq_of_le (by decide), BitVec.extractLsb'_append_eq_of_add_le (by decide)]
  exact BitVec.extractLsb'_eq_self

@[simp] theorem kkField_formatXKK : kkField (formatXKK op x kk) = kk := by
  rw [kkField, formatXKK, BitVec.extractLsb'_append_eq_of_add_le (by decide)]; exact BitVec.extractLsb'_eq_self

theorem formatXYN_eq : formatXYN op x y n = formatXKK op x (y ++ n) := rfl

@[simp] theorem opField_formatXYN : opField (formatXYN op x y n) = op := opField_formatXKK op x (y ++ n)

@[simp] theorem xField_formatXYN : xField (formatXYN op x y n) = x := xField_formatXKK op x (y ++ n)

@[simp] theorem yField_formatXYN : yField (formatXYN op x y n) = y := by
  rw [yField, formatXYN, BitVec.extractLsb'_append_eq_of_add_le (by decide), BitVec.extractLsb'_append_eq_of_le (by decide)]
  exact BitVec.extractLsb'_eq_self

@[simp] theorem nField_formatXYN : nField (formatXYN op x y n) = n := by
  rw [nField, formatXYN, BitVec.extractLsb'_append_eq_of_add_le (by decide), BitVec.extractLsb'_append_eq_of_add_le (by decide)]
  exact BitVec.extractLsb'_eq_self

theorem formatNNN_fields (w : Word) : formatNNN (opField w) (nnnField w) = w := by
  rw [formatNNN, opField, nnnField, BitVec.extractLsb'_append_extractLsb'_eq_extractLsb' (by decide)]
  exact BitVec.extractLsb'_eq_self

theorem formatXKK_fields (w : Word) : formatXKK (opField w) (xField w) (kkField w) = w := by
  rw [formatXKK, opField, xField, kkField, BitVec.extractLsb'_append_extractLsb'_eq_extractLsb' (by decide), BitVec.extractLsb'_append_extractLsb'_eq_extractLsb' (by decide)]
  exact BitVec.extractLsb'_eq_self

theorem formatXYN_fields (w : Word) : formatXYN (opField w) (xField w) (yField w) (nField w) = w := by
  rw [formatXYN, yField, nField, BitVec.extractLsb'_append_extractLsb'_eq_extractLsb' (by decide)]
  exact formatXKK_fields w

end Sys2Proof.Laws
end

