-- ==== Sys2Proof/Laws/Memory.lean ====
section
/-! SUPPORT. memory_4k: a byte read after writes, and that every memory operation keeps the canonical form. -/

namespace Sys2Proof.Machine

variable (font : FontTable)

@[simp] theorem Memory.read_nil (a : Nat) : Memory.read font [] a = resetByte font a := rfl

@[simp] theorem Memory.wf_nil : Memory.wf font [] = true := rfl

theorem Memory.wfFrom_cons_iff (lo : Nat) (c : Host.Cell) (rest : List Host.Cell) :
    Memory.wfFrom font lo (c :: rest) = true ↔
      lo ≤ c.1 ∧ inMemory c.1 = true ∧ c.2 ≠ resetByte font c.1 ∧ Memory.wfFrom font (c.1 + 1) rest = true := by
  obtain ⟨a, v⟩ := c
  simp [Memory.wfFrom, and_assoc]

theorem Memory.wfFrom_mono {lo lo' : Nat} {m : List Host.Cell} (h : lo' ≤ lo)
    (hm : Memory.wfFrom font lo m = true) : Memory.wfFrom font lo' m = true := by
  cases m with
  | nil => rfl
  | cons c rest =>
    rw [Memory.wfFrom_cons_iff] at hm ⊢
    exact ⟨h.trans hm.1, hm.2⟩

/-- A byte after a write at another address, in any list. -/
theorem Memory.read_write_of_ne (m : List Host.Cell) {a b : Nat} (v : Byte) (h : b ≠ a) :
    Memory.read font (Memory.write font m a v) b = Memory.read font m b := by
  induction m with
  | nil => simp only [Memory.write]; split <;> simp [Memory.read, h]
  | cons c rest ih =>
    obtain ⟨d, u⟩ := c
    simp only [Memory.write]
    split
    · split <;> simp [Memory.read, h]
    · split
      · rename_i had
        subst had
        split <;> simp [Memory.read, h]
      · simp only [Memory.read, ih]

/-- An address below every listed one reads as the reset contents. -/
theorem Memory.read_of_lt {lo a : Nat} {m : List Host.Cell} (hm : Memory.wfFrom font lo m = true) (h : a < lo) :
    Memory.read font m a = resetByte font a := by
  induction m generalizing lo with
  | nil => rfl
  | cons c rest ih =>
    rw [Memory.wfFrom_cons_iff] at hm
    obtain ⟨d, u⟩ := c
    have hne : a ≠ d := by have := hm.1; simp only at this; omega
    rw [Memory.read, if_neg hne]
    exact ih hm.2.2.2 (by have := hm.1; simp only at this ⊢; omega)

/-- A byte after a write at its own address: the value written, in any memory of canonical form. -/
theorem Memory.read_write_self_from {lo : Nat} {m : List Host.Cell} (hm : Memory.wfFrom font lo m = true)
    (a : Nat) (v : Byte) : Memory.read font (Memory.write font m a v) a = v := by
  induction m generalizing lo with
  | nil => simp only [Memory.write]; split <;> simp_all [Memory.read]
  | cons c rest ih =>
    obtain ⟨d, u⟩ := c
    rw [Memory.wfFrom_cons_iff] at hm
    simp only [Memory.write]
    split
    · rename_i had
      split
      · rename_i hv
        rw [Memory.read, if_neg (by omega), hv]
        exact Memory.read_of_lt font hm.2.2.2 (by simp only; omega)
      · simp [Memory.read]
    · split
      · rename_i had
        split
        · rename_i hv
          subst had
          rw [hv]
          exact Memory.read_of_lt font hm.2.2.2 (by simp)
        · simp [Memory.read]
      · rename_i _ had
        rw [Memory.read, if_neg had]
        exact ih hm.2.2.2

theorem Memory.wfFrom_write {lo : Nat} {m : List Host.Cell} (hm : Memory.wfFrom font lo m = true)
    {a : Nat} (ha : inMemory a = true) (hlo : lo ≤ a) (v : Byte) :
    Memory.wfFrom font lo (Memory.write font m a v) = true := by
  induction m generalizing lo with
  | nil =>
    simp only [Memory.write]
    split
    · rfl
    · rename_i hv
      exact (Memory.wfFrom_cons_iff font lo (a, v) []).2 ⟨hlo, ha, hv, rfl⟩
  | cons c rest ih =>
    obtain ⟨d, u⟩ := c
    have hc := (Memory.wfFrom_cons_iff font lo (d, u) rest).1 hm
    simp only [Memory.write]
    split
    · rename_i had
      split
      · exact hm
      · rename_i hv
        refine (Memory.wfFrom_cons_iff font lo (a, v) _).2 ⟨hlo, ha, hv, ?_⟩
        exact (Memory.wfFrom_cons_iff font (a + 1) (d, u) rest).2 ⟨had, hc.2⟩
    · rename_i hle
      split
      · rename_i had
        subst had
        split
        · exact Memory.wfFrom_mono font (by simp only; omega) hc.2.2.2
        · rename_i hv
          exact (Memory.wfFrom_cons_iff font lo (a, v) rest).2 ⟨hlo, ha, hv, hc.2.2.2⟩
      · rename_i had
        refine (Memory.wfFrom_cons_iff font lo (d, u) _).2 ⟨hc.1, hc.2.1, hc.2.2.1, ?_⟩
        exact ih hc.2.2.2 (by simp only; omega)

theorem Memory.read_write_self {m : List Host.Cell} (hm : Memory.wf font m = true) (a : Nat) (v : Byte) :
    Memory.read font (Memory.write font m a v) a = v :=
  Memory.read_write_self_from font hm a v

theorem Memory.wf_write {m : List Host.Cell} (hm : Memory.wf font m = true) {a : Nat} (ha : inMemory a = true)
    (v : Byte) : Memory.wf font (Memory.write font m a v) = true :=
  Memory.wfFrom_write font hm ha (Nat.zero_le a) v

/-- Writing a list of bytes leaves every byte outside them alone, in any list. -/
theorem Memory.read_writeList_of_outside (m : List Host.Cell) (a : Nat) (vs : List Byte) {b : Nat}
    (h : b < a ∨ a + vs.length ≤ b) : Memory.read font (Memory.writeList font m a vs) b = Memory.read font m b := by
  induction vs generalizing m a with
  | nil => rfl
  | cons v vs ih =>
    rw [List.length_cons] at h
    rw [Memory.writeList, ih _ _ (by omega), Memory.read_write_of_ne font m v (by omega)]

theorem Memory.wf_writeList {m : List Host.Cell} (hm : Memory.wf font m = true) (a : Nat) (vs : List Byte)
    (h : a + vs.length ≤ memSize) : Memory.wf font (Memory.writeList font m a vs) = true := by
  induction vs generalizing m a with
  | nil => exact hm
  | cons v vs ih =>
    rw [List.length_cons] at h
    exact ih (Memory.wf_write font hm (by simp only [inMemory, decide_eq_true_eq]; omega) v) (a + 1) (by omega)

/-- Writing a list of bytes puts each one at its address, in a memory of canonical form. -/
theorem Memory.read_writeList {m : List Host.Cell} (hm : Memory.wf font m = true) (a : Nat) (vs : List Byte)
    (h : a + vs.length ≤ memSize) {k : Nat} (hk : k < vs.length) :
    Memory.read font (Memory.writeList font m a vs) (a + k) = vs[k] := by
  induction vs generalizing m a k with
  | nil => simp at hk
  | cons v vs ih =>
    rw [List.length_cons] at h hk
    have hwf := Memory.wf_write font hm (a := a) (by simp only [inMemory, decide_eq_true_eq]; omega) v
    cases k with
    | zero =>
      rw [Memory.writeList, Nat.add_zero, Memory.read_writeList_of_outside font _ _ _ (by omega)]
      exact Memory.read_write_self font hm a v
    | succ k =>
      rw [Memory.writeList, show a + (k + 1) = a + 1 + k by omega]
      exact ih hwf (a + 1) (by omega) (by omega)

end Sys2Proof.Machine
end

