-- ==== Sys2Proof/Laws/State.lean ====
section
/-! SUPPORT. One lemma per field and update, true by rfl, so that no later proof unfolds a record update; the same for the
accessors `reg`, `readByte` and `keyDown`. The two updates that depend on a parameter come last, by cases. -/

namespace Sys2Proof.Machine

variable (s : State)

/-! ### setReg -/

@[simp] theorem State.setReg_V (x : Nibble) (v : Byte) : (s.setReg x v).V = s.V.set x.toNat v x.isLt := rfl
@[simp] theorem State.setReg_I (x : Nibble) (v : Byte) : (s.setReg x v).I = s.I := rfl
@[simp] theorem State.setReg_pc (x : Nibble) (v : Byte) : (s.setReg x v).pc = s.pc := rfl
@[simp] theorem State.setReg_sp (x : Nibble) (v : Byte) : (s.setReg x v).sp = s.sp := rfl
@[simp] theorem State.setReg_stack (x : Nibble) (v : Byte) : (s.setReg x v).stack = s.stack := rfl
@[simp] theorem State.setReg_DT (x : Nibble) (v : Byte) : (s.setReg x v).DT = s.DT := rfl
@[simp] theorem State.setReg_ST (x : Nibble) (v : Byte) : (s.setReg x v).ST = s.ST := rfl
@[simp] theorem State.setReg_mem (x : Nibble) (v : Byte) : (s.setReg x v).mem = s.mem := rfl
@[simp] theorem State.setReg_fb (x : Nibble) (v : Byte) : (s.setReg x v).fb = s.fb := rfl
@[simp] theorem State.setReg_key (x : Nibble) (v : Byte) : (s.setReg x v).key = s.key := rfl
@[simp] theorem State.setReg_run (x : Nibble) (v : Byte) : (s.setReg x v).run = s.run := rfl
@[simp] theorem State.setReg_await (x : Nibble) (v : Byte) : (s.setReg x v).await = s.await := rfl
@[simp] theorem State.setReg_err (x : Nibble) (v : Byte) : (s.setReg x v).err = s.err := rfl
@[simp] theorem State.setReg_dirty (x : Nibble) (v : Byte) : (s.setReg x v).dirty = s.dirty := rfl
@[simp] theorem State.setReg_draws (x : Nibble) (v : Byte) : (s.setReg x v).draws = s.draws := rfl
@[simp] theorem State.setReg_cfg (x : Nibble) (v : Byte) : (s.setReg x v).cfg = s.cfg := rfl
@[simp] theorem State.setReg_readByte (x : Nibble) (v : Byte) (q : Nat) : (s.setReg x v).readByte q = s.readByte q := rfl
@[simp] theorem State.setReg_keyDown (x : Nibble) (v : Byte) (q : Nibble) : (s.setReg x v).keyDown q = s.keyDown q := rfl

/-! ### setVF -/

@[simp] theorem State.setVF_V (f : Byte) : (s.setVF f).V = s.V.set VF.toNat f VF.isLt := rfl
@[simp] theorem State.setVF_I (f : Byte) : (s.setVF f).I = s.I := rfl
@[simp] theorem State.setVF_pc (f : Byte) : (s.setVF f).pc = s.pc := rfl
@[simp] theorem State.setVF_sp (f : Byte) : (s.setVF f).sp = s.sp := rfl
@[simp] theorem State.setVF_stack (f : Byte) : (s.setVF f).stack = s.stack := rfl
@[simp] theorem State.setVF_DT (f : Byte) : (s.setVF f).DT = s.DT := rfl
@[simp] theorem State.setVF_ST (f : Byte) : (s.setVF f).ST = s.ST := rfl
@[simp] theorem State.setVF_mem (f : Byte) : (s.setVF f).mem = s.mem := rfl
@[simp] theorem State.setVF_fb (f : Byte) : (s.setVF f).fb = s.fb := rfl
@[simp] theorem State.setVF_key (f : Byte) : (s.setVF f).key = s.key := rfl
@[simp] theorem State.setVF_run (f : Byte) : (s.setVF f).run = s.run := rfl
@[simp] theorem State.setVF_await (f : Byte) : (s.setVF f).await = s.await := rfl
@[simp] theorem State.setVF_err (f : Byte) : (s.setVF f).err = s.err := rfl
@[simp] theorem State.setVF_dirty (f : Byte) : (s.setVF f).dirty = s.dirty := rfl
@[simp] theorem State.setVF_draws (f : Byte) : (s.setVF f).draws = s.draws := rfl
@[simp] theorem State.setVF_cfg (f : Byte) : (s.setVF f).cfg = s.cfg := rfl
@[simp] theorem State.setVF_readByte (f : Byte) (q : Nat) : (s.setVF f).readByte q = s.readByte q := rfl
@[simp] theorem State.setVF_keyDown (f : Byte) (q : Nibble) : (s.setVF f).keyDown q = s.keyDown q := rfl

/-! ### setI -/

@[simp] theorem State.setI_V (v : Word) : (s.setI v).V = s.V := rfl
@[simp] theorem State.setI_I (v : Word) : (s.setI v).I = v := rfl
@[simp] theorem State.setI_pc (v : Word) : (s.setI v).pc = s.pc := rfl
@[simp] theorem State.setI_sp (v : Word) : (s.setI v).sp = s.sp := rfl
@[simp] theorem State.setI_stack (v : Word) : (s.setI v).stack = s.stack := rfl
@[simp] theorem State.setI_DT (v : Word) : (s.setI v).DT = s.DT := rfl
@[simp] theorem State.setI_ST (v : Word) : (s.setI v).ST = s.ST := rfl
@[simp] theorem State.setI_mem (v : Word) : (s.setI v).mem = s.mem := rfl
@[simp] theorem State.setI_fb (v : Word) : (s.setI v).fb = s.fb := rfl
@[simp] theorem State.setI_key (v : Word) : (s.setI v).key = s.key := rfl
@[simp] theorem State.setI_run (v : Word) : (s.setI v).run = s.run := rfl
@[simp] theorem State.setI_await (v : Word) : (s.setI v).await = s.await := rfl
@[simp] theorem State.setI_err (v : Word) : (s.setI v).err = s.err := rfl
@[simp] theorem State.setI_dirty (v : Word) : (s.setI v).dirty = s.dirty := rfl
@[simp] theorem State.setI_draws (v : Word) : (s.setI v).draws = s.draws := rfl
@[simp] theorem State.setI_cfg (v : Word) : (s.setI v).cfg = s.cfg := rfl
@[simp] theorem State.setI_reg (v : Word) (q : Nibble) : (s.setI v).reg q = s.reg q := rfl
@[simp] theorem State.setI_readByte (v : Word) (q : Nat) : (s.setI v).readByte q = s.readByte q := rfl
@[simp] theorem State.setI_keyDown (v : Word) (q : Nibble) : (s.setI v).keyDown q = s.keyDown q := rfl

/-! ### setPc -/

@[simp] theorem State.setPc_V (v : Word) : (s.setPc v).V = s.V := rfl
@[simp] theorem State.setPc_I (v : Word) : (s.setPc v).I = s.I := rfl
@[simp] theorem State.setPc_pc (v : Word) : (s.setPc v).pc = v := rfl
@[simp] theorem State.setPc_sp (v : Word) : (s.setPc v).sp = s.sp := rfl
@[simp] theorem State.setPc_stack (v : Word) : (s.setPc v).stack = s.stack := rfl
@[simp] theorem State.setPc_DT (v : Word) : (s.setPc v).DT = s.DT := rfl
@[simp] theorem State.setPc_ST (v : Word) : (s.setPc v).ST = s.ST := rfl
@[simp] theorem State.setPc_mem (v : Word) : (s.setPc v).mem = s.mem := rfl
@[simp] theorem State.setPc_fb (v : Word) : (s.setPc v).fb = s.fb := rfl
@[simp] theorem State.setPc_key (v : Word) : (s.setPc v).key = s.key := rfl
@[simp] theorem State.setPc_run (v : Word) : (s.setPc v).run = s.run := rfl
@[simp] theorem State.setPc_await (v : Word) : (s.setPc v).await = s.await := rfl
@[simp] theorem State.setPc_err (v : Word) : (s.setPc v).err = s.err := rfl
@[simp] theorem State.setPc_dirty (v : Word) : (s.setPc v).dirty = s.dirty := rfl
@[simp] theorem State.setPc_draws (v : Word) : (s.setPc v).draws = s.draws := rfl
@[simp] theorem State.setPc_cfg (v : Word) : (s.setPc v).cfg = s.cfg := rfl
@[simp] theorem State.setPc_reg (v : Word) (q : Nibble) : (s.setPc v).reg q = s.reg q := rfl
@[simp] theorem State.setPc_readByte (v : Word) (q : Nat) : (s.setPc v).readByte q = s.readByte q := rfl
@[simp] theorem State.setPc_keyDown (v : Word) (q : Nibble) : (s.setPc v).keyDown q = s.keyDown q := rfl

/-! ### advance -/

@[simp] theorem State.advance_V (k : Word) : (s.advance k).V = s.V := rfl
@[simp] theorem State.advance_I (k : Word) : (s.advance k).I = s.I := rfl
@[simp] theorem State.advance_pc (k : Word) : (s.advance k).pc = s.pc + k := rfl
@[simp] theorem State.advance_sp (k : Word) : (s.advance k).sp = s.sp := rfl
@[simp] theorem State.advance_stack (k : Word) : (s.advance k).stack = s.stack := rfl
@[simp] theorem State.advance_DT (k : Word) : (s.advance k).DT = s.DT := rfl
@[simp] theorem State.advance_ST (k : Word) : (s.advance k).ST = s.ST := rfl
@[simp] theorem State.advance_mem (k : Word) : (s.advance k).mem = s.mem := rfl
@[simp] theorem State.advance_fb (k : Word) : (s.advance k).fb = s.fb := rfl
@[simp] theorem State.advance_key (k : Word) : (s.advance k).key = s.key := rfl
@[simp] theorem State.advance_run (k : Word) : (s.advance k).run = s.run := rfl
@[simp] theorem State.advance_await (k : Word) : (s.advance k).await = s.await := rfl
@[simp] theorem State.advance_err (k : Word) : (s.advance k).err = s.err := rfl
@[simp] theorem State.advance_dirty (k : Word) : (s.advance k).dirty = s.dirty := rfl
@[simp] theorem State.advance_draws (k : Word) : (s.advance k).draws = s.draws := rfl
@[simp] theorem State.advance_cfg (k : Word) : (s.advance k).cfg = s.cfg := rfl
@[simp] theorem State.advance_reg (k : Word) (q : Nibble) : (s.advance k).reg q = s.reg q := rfl
@[simp] theorem State.advance_readByte (k : Word) (q : Nat) : (s.advance k).readByte q = s.readByte q := rfl
@[simp] theorem State.advance_keyDown (k : Word) (q : Nibble) : (s.advance k).keyDown q = s.keyDown q := rfl

/-! ### skipIf -/

@[simp] theorem State.skipIf_V (c : Bool) : (s.skipIf c).V = s.V := rfl
@[simp] theorem State.skipIf_I (c : Bool) : (s.skipIf c).I = s.I := rfl
@[simp] theorem State.skipIf_pc (c : Bool) : (s.skipIf c).pc = s.pc + (if c then skipLen else instrLen) := rfl
@[simp] theorem State.skipIf_sp (c : Bool) : (s.skipIf c).sp = s.sp := rfl
@[simp] theorem State.skipIf_stack (c : Bool) : (s.skipIf c).stack = s.stack := rfl
@[simp] theorem State.skipIf_DT (c : Bool) : (s.skipIf c).DT = s.DT := rfl
@[simp] theorem State.skipIf_ST (c : Bool) : (s.skipIf c).ST = s.ST := rfl
@[simp] theorem State.skipIf_mem (c : Bool) : (s.skipIf c).mem = s.mem := rfl
@[simp] theorem State.skipIf_fb (c : Bool) : (s.skipIf c).fb = s.fb := rfl
@[simp] theorem State.skipIf_key (c : Bool) : (s.skipIf c).key = s.key := rfl
@[simp] theorem State.skipIf_run (c : Bool) : (s.skipIf c).run = s.run := rfl
@[simp] theorem State.skipIf_await (c : Bool) : (s.skipIf c).await = s.await := rfl
@[simp] theorem State.skipIf_err (c : Bool) : (s.skipIf c).err = s.err := rfl
@[simp] theorem State.skipIf_dirty (c : Bool) : (s.skipIf c).dirty = s.dirty := rfl
@[simp] theorem State.skipIf_draws (c : Bool) : (s.skipIf c).draws = s.draws := rfl
@[simp] theorem State.skipIf_cfg (c : Bool) : (s.skipIf c).cfg = s.cfg := rfl
@[simp] theorem State.skipIf_reg (c : Bool) (q : Nibble) : (s.skipIf c).reg q = s.reg q := rfl
@[simp] theorem State.skipIf_readByte (c : Bool) (q : Nat) : (s.skipIf c).readByte q = s.readByte q := rfl
@[simp] theorem State.skipIf_keyDown (c : Bool) (q : Nibble) : (s.skipIf c).keyDown q = s.keyDown q := rfl

/-! ### setStack -/

@[simp] theorem State.setStack_V (d : Fin 17) (e : Vector Word 16) : (s.setStack d e).V = s.V := rfl
@[simp] theorem State.setStack_I (d : Fin 17) (e : Vector Word 16) : (s.setStack d e).I = s.I := rfl
@[simp] theorem State.setStack_pc (d : Fin 17) (e : Vector Word 16) : (s.setStack d e).pc = s.pc := rfl
@[simp] theorem State.setStack_sp (d : Fin 17) (e : Vector Word 16) : (s.setStack d e).sp = d := rfl
@[simp] theorem State.setStack_stack (d : Fin 17) (e : Vector Word 16) : (s.setStack d e).stack = e := rfl
@[simp] theorem State.setStack_DT (d : Fin 17) (e : Vector Word 16) : (s.setStack d e).DT = s.DT := rfl
@[simp] theorem State.setStack_ST (d : Fin 17) (e : Vector Word 16) : (s.setStack d e).ST = s.ST := rfl
@[simp] theorem State.setStack_mem (d : Fin 17) (e : Vector Word 16) : (s.setStack d e).mem = s.mem := rfl
@[simp] theorem State.setStack_fb (d : Fin 17) (e : Vector Word 16) : (s.setStack d e).fb = s.fb := rfl
@[simp] theorem State.setStack_key (d : Fin 17) (e : Vector Word 16) : (s.setStack d e).key = s.key := rfl
@[simp] theorem State.setStack_run (d : Fin 17) (e : Vector Word 16) : (s.setStack d e).run = s.run := rfl
@[simp] theorem State.setStack_await (d : Fin 17) (e : Vector Word 16) : (s.setStack d e).await = s.await := rfl
@[simp] theorem State.setStack_err (d : Fin 17) (e : Vector Word 16) : (s.setStack d e).err = s.err := rfl
@[simp] theorem State.setStack_dirty (d : Fin 17) (e : Vector Word 16) : (s.setStack d e).dirty = s.dirty := rfl
@[simp] theorem State.setStack_draws (d : Fin 17) (e : Vector Word 16) : (s.setStack d e).draws = s.draws := rfl
@[simp] theorem State.setStack_cfg (d : Fin 17) (e : Vector Word 16) : (s.setStack d e).cfg = s.cfg := rfl
@[simp] theorem State.setStack_reg (d : Fin 17) (e : Vector Word 16) (q : Nibble) : (s.setStack d e).reg q = s.reg q := rfl
@[simp] theorem State.setStack_readByte (d : Fin 17) (e : Vector Word 16) (q : Nat) : (s.setStack d e).readByte q = s.readByte q := rfl
@[simp] theorem State.setStack_keyDown (d : Fin 17) (e : Vector Word 16) (q : Nibble) : (s.setStack d e).keyDown q = s.keyDown q := rfl

/-! ### setMem -/

@[simp] theorem State.setMem_V (m : List Host.Cell) : (s.setMem m).V = s.V := rfl
@[simp] theorem State.setMem_I (m : List Host.Cell) : (s.setMem m).I = s.I := rfl
@[simp] theorem State.setMem_pc (m : List Host.Cell) : (s.setMem m).pc = s.pc := rfl
@[simp] theorem State.setMem_sp (m : List Host.Cell) : (s.setMem m).sp = s.sp := rfl
@[simp] theorem State.setMem_stack (m : List Host.Cell) : (s.setMem m).stack = s.stack := rfl
@[simp] theorem State.setMem_DT (m : List Host.Cell) : (s.setMem m).DT = s.DT := rfl
@[simp] theorem State.setMem_ST (m : List Host.Cell) : (s.setMem m).ST = s.ST := rfl
@[simp] theorem State.setMem_mem (m : List Host.Cell) : (s.setMem m).mem = m := rfl
@[simp] theorem State.setMem_fb (m : List Host.Cell) : (s.setMem m).fb = s.fb := rfl
@[simp] theorem State.setMem_key (m : List Host.Cell) : (s.setMem m).key = s.key := rfl
@[simp] theorem State.setMem_run (m : List Host.Cell) : (s.setMem m).run = s.run := rfl
@[simp] theorem State.setMem_await (m : List Host.Cell) : (s.setMem m).await = s.await := rfl
@[simp] theorem State.setMem_err (m : List Host.Cell) : (s.setMem m).err = s.err := rfl
@[simp] theorem State.setMem_dirty (m : List Host.Cell) : (s.setMem m).dirty = s.dirty := rfl
@[simp] theorem State.setMem_draws (m : List Host.Cell) : (s.setMem m).draws = s.draws := rfl
@[simp] theorem State.setMem_cfg (m : List Host.Cell) : (s.setMem m).cfg = s.cfg := rfl
@[simp] theorem State.setMem_reg (m : List Host.Cell) (q : Nibble) : (s.setMem m).reg q = s.reg q := rfl
@[simp] theorem State.setMem_keyDown (m : List Host.Cell) (q : Nibble) : (s.setMem m).keyDown q = s.keyDown q := rfl

/-! ### storeBytes -/

@[simp] theorem State.storeBytes_V (a : Nat) (vs : List Byte) : (s.storeBytes a vs).V = s.V := rfl
@[simp] theorem State.storeBytes_I (a : Nat) (vs : List Byte) : (s.storeBytes a vs).I = s.I := rfl
@[simp] theorem State.storeBytes_pc (a : Nat) (vs : List Byte) : (s.storeBytes a vs).pc = s.pc := rfl
@[simp] theorem State.storeBytes_sp (a : Nat) (vs : List Byte) : (s.storeBytes a vs).sp = s.sp := rfl
@[simp] theorem State.storeBytes_stack (a : Nat) (vs : List Byte) : (s.storeBytes a vs).stack = s.stack := rfl
@[simp] theorem State.storeBytes_DT (a : Nat) (vs : List Byte) : (s.storeBytes a vs).DT = s.DT := rfl
@[simp] theorem State.storeBytes_ST (a : Nat) (vs : List Byte) : (s.storeBytes a vs).ST = s.ST := rfl
@[simp] theorem State.storeBytes_mem (a : Nat) (vs : List Byte) : (s.storeBytes a vs).mem = Memory.writeList s.cfg.fontGlyphs s.mem a vs := rfl
@[simp] theorem State.storeBytes_fb (a : Nat) (vs : List Byte) : (s.storeBytes a vs).fb = s.fb := rfl
@[simp] theorem State.storeBytes_key (a : Nat) (vs : List Byte) : (s.storeBytes a vs).key = s.key := rfl
@[simp] theorem State.storeBytes_run (a : Nat) (vs : List Byte) : (s.storeBytes a vs).run = s.run := rfl
@[simp] theorem State.storeBytes_await (a : Nat) (vs : List Byte) : (s.storeBytes a vs).await = s.await := rfl
@[simp] theorem State.storeBytes_err (a : Nat) (vs : List Byte) : (s.storeBytes a vs).err = s.err := rfl
@[simp] theorem State.storeBytes_dirty (a : Nat) (vs : List Byte) : (s.storeBytes a vs).dirty = s.dirty := rfl
@[simp] theorem State.storeBytes_draws (a : Nat) (vs : List Byte) : (s.storeBytes a vs).draws = s.draws := rfl
@[simp] theorem State.storeBytes_cfg (a : Nat) (vs : List Byte) : (s.storeBytes a vs).cfg = s.cfg := rfl
@[simp] theorem State.storeBytes_reg (a : Nat) (vs : List Byte) (q : Nibble) : (s.storeBytes a vs).reg q = s.reg q := rfl
@[simp] theorem State.storeBytes_keyDown (a : Nat) (vs : List Byte) (q : Nibble) : (s.storeBytes a vs).keyDown q = s.keyDown q := rfl

/-! ### setDT -/

@[simp] theorem State.setDT_V (v : Byte) : (s.setDT v).V = s.V := rfl
@[simp] theorem State.setDT_I (v : Byte) : (s.setDT v).I = s.I := rfl
@[simp] theorem State.setDT_pc (v : Byte) : (s.setDT v).pc = s.pc := rfl
@[simp] theorem State.setDT_sp (v : Byte) : (s.setDT v).sp = s.sp := rfl
@[simp] theorem State.setDT_stack (v : Byte) : (s.setDT v).stack = s.stack := rfl
@[simp] theorem State.setDT_DT (v : Byte) : (s.setDT v).DT = v := rfl
@[simp] theorem State.setDT_ST (v : Byte) : (s.setDT v).ST = s.ST := rfl
@[simp] theorem State.setDT_mem (v : Byte) : (s.setDT v).mem = s.mem := rfl
@[simp] theorem State.setDT_fb (v : Byte) : (s.setDT v).fb = s.fb := rfl
@[simp] theorem State.setDT_key (v : Byte) : (s.setDT v).key = s.key := rfl
@[simp] theorem State.setDT_run (v : Byte) : (s.setDT v).run = s.run := rfl
@[simp] theorem State.setDT_await (v : Byte) : (s.setDT v).await = s.await := rfl
@[simp] theorem State.setDT_err (v : Byte) : (s.setDT v).err = s.err := rfl
@[simp] theorem State.setDT_dirty (v : Byte) : (s.setDT v).dirty = s.dirty := rfl
@[simp] theorem State.setDT_draws (v : Byte) : (s.setDT v).draws = s.draws := rfl
@[simp] theorem State.setDT_cfg (v : Byte) : (s.setDT v).cfg = s.cfg := rfl
@[simp] theorem State.setDT_reg (v : Byte) (q : Nibble) : (s.setDT v).reg q = s.reg q := rfl
@[simp] theorem State.setDT_readByte (v : Byte) (q : Nat) : (s.setDT v).readByte q = s.readByte q := rfl
@[simp] theorem State.setDT_keyDown (v : Byte) (q : Nibble) : (s.setDT v).keyDown q = s.keyDown q := rfl

/-! ### setST -/

@[simp] theorem State.setST_V (v : Byte) : (s.setST v).V = s.V := rfl
@[simp] theorem State.setST_I (v : Byte) : (s.setST v).I = s.I := rfl
@[simp] theorem State.setST_pc (v : Byte) : (s.setST v).pc = s.pc := rfl
@[simp] theorem State.setST_sp (v : Byte) : (s.setST v).sp = s.sp := rfl
@[simp] theorem State.setST_stack (v : Byte) : (s.setST v).stack = s.stack := rfl
@[simp] theorem State.setST_DT (v : Byte) : (s.setST v).DT = s.DT := rfl
@[simp] theorem State.setST_ST (v : Byte) : (s.setST v).ST = v := rfl
@[simp] theorem State.setST_mem (v : Byte) : (s.setST v).mem = s.mem := rfl
@[simp] theorem State.setST_fb (v : Byte) : (s.setST v).fb = s.fb := rfl
@[simp] theorem State.setST_key (v : Byte) : (s.setST v).key = s.key := rfl
@[simp] theorem State.setST_run (v : Byte) : (s.setST v).run = s.run := rfl
@[simp] theorem State.setST_await (v : Byte) : (s.setST v).await = s.await := rfl
@[simp] theorem State.setST_err (v : Byte) : (s.setST v).err = s.err := rfl
@[simp] theorem State.setST_dirty (v : Byte) : (s.setST v).dirty = s.dirty := rfl
@[simp] theorem State.setST_draws (v : Byte) : (s.setST v).draws = s.draws := rfl
@[simp] theorem State.setST_cfg (v : Byte) : (s.setST v).cfg = s.cfg := rfl
@[simp] theorem State.setST_reg (v : Byte) (q : Nibble) : (s.setST v).reg q = s.reg q := rfl
@[simp] theorem State.setST_readByte (v : Byte) (q : Nat) : (s.setST v).readByte q = s.readByte q := rfl
@[simp] theorem State.setST_keyDown (v : Byte) (q : Nibble) : (s.setST v).keyDown q = s.keyDown q := rfl

/-! ### setFb -/

@[simp] theorem State.setFb_V (f : Framebuffer) : (s.setFb f).V = s.V := rfl
@[simp] theorem State.setFb_I (f : Framebuffer) : (s.setFb f).I = s.I := rfl
@[simp] theorem State.setFb_pc (f : Framebuffer) : (s.setFb f).pc = s.pc := rfl
@[simp] theorem State.setFb_sp (f : Framebuffer) : (s.setFb f).sp = s.sp := rfl
@[simp] theorem State.setFb_stack (f : Framebuffer) : (s.setFb f).stack = s.stack := rfl
@[simp] theorem State.setFb_DT (f : Framebuffer) : (s.setFb f).DT = s.DT := rfl
@[simp] theorem State.setFb_ST (f : Framebuffer) : (s.setFb f).ST = s.ST := rfl
@[simp] theorem State.setFb_mem (f : Framebuffer) : (s.setFb f).mem = s.mem := rfl
@[simp] theorem State.setFb_fb (f : Framebuffer) : (s.setFb f).fb = f := rfl
@[simp] theorem State.setFb_key (f : Framebuffer) : (s.setFb f).key = s.key := rfl
@[simp] theorem State.setFb_run (f : Framebuffer) : (s.setFb f).run = s.run := rfl
@[simp] theorem State.setFb_await (f : Framebuffer) : (s.setFb f).await = s.await := rfl
@[simp] theorem State.setFb_err (f : Framebuffer) : (s.setFb f).err = s.err := rfl
@[simp] theorem State.setFb_dirty (f : Framebuffer) : (s.setFb f).dirty = s.dirty := rfl
@[simp] theorem State.setFb_draws (f : Framebuffer) : (s.setFb f).draws = s.draws := rfl
@[simp] theorem State.setFb_cfg (f : Framebuffer) : (s.setFb f).cfg = s.cfg := rfl
@[simp] theorem State.setFb_reg (f : Framebuffer) (q : Nibble) : (s.setFb f).reg q = s.reg q := rfl
@[simp] theorem State.setFb_readByte (f : Framebuffer) (q : Nat) : (s.setFb f).readByte q = s.readByte q := rfl
@[simp] theorem State.setFb_keyDown (f : Framebuffer) (q : Nibble) : (s.setFb f).keyDown q = s.keyDown q := rfl

/-! ### setDirty -/

@[simp] theorem State.setDirty_V (d : Bool) : (s.setDirty d).V = s.V := rfl
@[simp] theorem State.setDirty_I (d : Bool) : (s.setDirty d).I = s.I := rfl
@[simp] theorem State.setDirty_pc (d : Bool) : (s.setDirty d).pc = s.pc := rfl
@[simp] theorem State.setDirty_sp (d : Bool) : (s.setDirty d).sp = s.sp := rfl
@[simp] theorem State.setDirty_stack (d : Bool) : (s.setDirty d).stack = s.stack := rfl
@[simp] theorem State.setDirty_DT (d : Bool) : (s.setDirty d).DT = s.DT := rfl
@[simp] theorem State.setDirty_ST (d : Bool) : (s.setDirty d).ST = s.ST := rfl
@[simp] theorem State.setDirty_mem (d : Bool) : (s.setDirty d).mem = s.mem := rfl
@[simp] theorem State.setDirty_fb (d : Bool) : (s.setDirty d).fb = s.fb := rfl
@[simp] theorem State.setDirty_key (d : Bool) : (s.setDirty d).key = s.key := rfl
@[simp] theorem State.setDirty_run (d : Bool) : (s.setDirty d).run = s.run := rfl
@[simp] theorem State.setDirty_await (d : Bool) : (s.setDirty d).await = s.await := rfl
@[simp] theorem State.setDirty_err (d : Bool) : (s.setDirty d).err = s.err := rfl
@[simp] theorem State.setDirty_dirty (d : Bool) : (s.setDirty d).dirty = d := rfl
@[simp] theorem State.setDirty_draws (d : Bool) : (s.setDirty d).draws = s.draws := rfl
@[simp] theorem State.setDirty_cfg (d : Bool) : (s.setDirty d).cfg = s.cfg := rfl
@[simp] theorem State.setDirty_reg (d : Bool) (q : Nibble) : (s.setDirty d).reg q = s.reg q := rfl
@[simp] theorem State.setDirty_readByte (d : Bool) (q : Nat) : (s.setDirty d).readByte q = s.readByte q := rfl
@[simp] theorem State.setDirty_keyDown (d : Bool) (q : Nibble) : (s.setDirty d).keyDown q = s.keyDown q := rfl

/-! ### setKeyState -/

@[simp] theorem State.setKeyState_V (k : Nibble) (p : Bool) : (s.setKeyState k p).V = s.V := rfl
@[simp] theorem State.setKeyState_I (k : Nibble) (p : Bool) : (s.setKeyState k p).I = s.I := rfl
@[simp] theorem State.setKeyState_pc (k : Nibble) (p : Bool) : (s.setKeyState k p).pc = s.pc := rfl
@[simp] theorem State.setKeyState_sp (k : Nibble) (p : Bool) : (s.setKeyState k p).sp = s.sp := rfl
@[simp] theorem State.setKeyState_stack (k : Nibble) (p : Bool) : (s.setKeyState k p).stack = s.stack := rfl
@[simp] theorem State.setKeyState_DT (k : Nibble) (p : Bool) : (s.setKeyState k p).DT = s.DT := rfl
@[simp] theorem State.setKeyState_ST (k : Nibble) (p : Bool) : (s.setKeyState k p).ST = s.ST := rfl
@[simp] theorem State.setKeyState_mem (k : Nibble) (p : Bool) : (s.setKeyState k p).mem = s.mem := rfl
@[simp] theorem State.setKeyState_fb (k : Nibble) (p : Bool) : (s.setKeyState k p).fb = s.fb := rfl
@[simp] theorem State.setKeyState_key (k : Nibble) (p : Bool) : (s.setKeyState k p).key = s.key.set k.toNat p k.isLt := rfl
@[simp] theorem State.setKeyState_run (k : Nibble) (p : Bool) : (s.setKeyState k p).run = s.run := rfl
@[simp] theorem State.setKeyState_await (k : Nibble) (p : Bool) : (s.setKeyState k p).await = s.await := rfl
@[simp] theorem State.setKeyState_err (k : Nibble) (p : Bool) : (s.setKeyState k p).err = s.err := rfl
@[simp] theorem State.setKeyState_dirty (k : Nibble) (p : Bool) : (s.setKeyState k p).dirty = s.dirty := rfl
@[simp] theorem State.setKeyState_draws (k : Nibble) (p : Bool) : (s.setKeyState k p).draws = s.draws := rfl
@[simp] theorem State.setKeyState_cfg (k : Nibble) (p : Bool) : (s.setKeyState k p).cfg = s.cfg := rfl
@[simp] theorem State.setKeyState_reg (k : Nibble) (p : Bool) (q : Nibble) : (s.setKeyState k p).reg q = s.reg q := rfl
@[simp] theorem State.setKeyState_readByte (k : Nibble) (p : Bool) (q : Nat) : (s.setKeyState k p).readByte q = s.readByte q := rfl

/-! ### setAwait -/

@[simp] theorem State.setAwait_V (a : Option Nibble) : (s.setAwait a).V = s.V := rfl
@[simp] theorem State.setAwait_I (a : Option Nibble) : (s.setAwait a).I = s.I := rfl
@[simp] theorem State.setAwait_pc (a : Option Nibble) : (s.setAwait a).pc = s.pc := rfl
@[simp] theorem State.setAwait_sp (a : Option Nibble) : (s.setAwait a).sp = s.sp := rfl
@[simp] theorem State.setAwait_stack (a : Option Nibble) : (s.setAwait a).stack = s.stack := rfl
@[simp] theorem State.setAwait_DT (a : Option Nibble) : (s.setAwait a).DT = s.DT := rfl
@[simp] theorem State.setAwait_ST (a : Option Nibble) : (s.setAwait a).ST = s.ST := rfl
@[simp] theorem State.setAwait_mem (a : Option Nibble) : (s.setAwait a).mem = s.mem := rfl
@[simp] theorem State.setAwait_fb (a : Option Nibble) : (s.setAwait a).fb = s.fb := rfl
@[simp] theorem State.setAwait_key (a : Option Nibble) : (s.setAwait a).key = s.key := rfl
@[simp] theorem State.setAwait_run (a : Option Nibble) : (s.setAwait a).run = s.run := rfl
@[simp] theorem State.setAwait_await (a : Option Nibble) : (s.setAwait a).await = a := rfl
@[simp] theorem State.setAwait_err (a : Option Nibble) : (s.setAwait a).err = s.err := rfl
@[simp] theorem State.setAwait_dirty (a : Option Nibble) : (s.setAwait a).dirty = s.dirty := rfl
@[simp] theorem State.setAwait_draws (a : Option Nibble) : (s.setAwait a).draws = s.draws := rfl
@[simp] theorem State.setAwait_cfg (a : Option Nibble) : (s.setAwait a).cfg = s.cfg := rfl
@[simp] theorem State.setAwait_reg (a : Option Nibble) (q : Nibble) : (s.setAwait a).reg q = s.reg q := rfl
@[simp] theorem State.setAwait_readByte (a : Option Nibble) (q : Nat) : (s.setAwait a).readByte q = s.readByte q := rfl
@[simp] theorem State.setAwait_keyDown (a : Option Nibble) (q : Nibble) : (s.setAwait a).keyDown q = s.keyDown q := rfl

/-! ### countDraw -/

@[simp] theorem State.countDraw_V : (s.countDraw).V = s.V := rfl
@[simp] theorem State.countDraw_I : (s.countDraw).I = s.I := rfl
@[simp] theorem State.countDraw_pc : (s.countDraw).pc = s.pc := rfl
@[simp] theorem State.countDraw_sp : (s.countDraw).sp = s.sp := rfl
@[simp] theorem State.countDraw_stack : (s.countDraw).stack = s.stack := rfl
@[simp] theorem State.countDraw_DT : (s.countDraw).DT = s.DT := rfl
@[simp] theorem State.countDraw_ST : (s.countDraw).ST = s.ST := rfl
@[simp] theorem State.countDraw_mem : (s.countDraw).mem = s.mem := rfl
@[simp] theorem State.countDraw_fb : (s.countDraw).fb = s.fb := rfl
@[simp] theorem State.countDraw_key : (s.countDraw).key = s.key := rfl
@[simp] theorem State.countDraw_run : (s.countDraw).run = s.run := rfl
@[simp] theorem State.countDraw_await : (s.countDraw).await = s.await := rfl
@[simp] theorem State.countDraw_err : (s.countDraw).err = s.err := rfl
@[simp] theorem State.countDraw_dirty : (s.countDraw).dirty = s.dirty := rfl
@[simp] theorem State.countDraw_draws : (s.countDraw).draws = s.draws + 1 := rfl
@[simp] theorem State.countDraw_cfg : (s.countDraw).cfg = s.cfg := rfl
@[simp] theorem State.countDraw_reg (q : Nibble) : (s.countDraw).reg q = s.reg q := rfl
@[simp] theorem State.countDraw_readByte (q : Nat) : (s.countDraw).readByte q = s.readByte q := rfl
@[simp] theorem State.countDraw_keyDown (q : Nibble) : (s.countDraw).keyDown q = s.keyDown q := rfl

/-! ### halt -/

@[simp] theorem State.halt_V (e : Error) : (s.halt e).V = s.V := rfl
@[simp] theorem State.halt_I (e : Error) : (s.halt e).I = s.I := rfl
@[simp] theorem State.halt_pc (e : Error) : (s.halt e).pc = s.pc := rfl
@[simp] theorem State.halt_sp (e : Error) : (s.halt e).sp = s.sp := rfl
@[simp] theorem State.halt_stack (e : Error) : (s.halt e).stack = s.stack := rfl
@[simp] theorem State.halt_DT (e : Error) : (s.halt e).DT = s.DT := rfl
@[simp] theorem State.halt_ST (e : Error) : (s.halt e).ST = s.ST := rfl
@[simp] theorem State.halt_mem (e : Error) : (s.halt e).mem = s.mem := rfl
@[simp] theorem State.halt_fb (e : Error) : (s.halt e).fb = s.fb := rfl
@[simp] theorem State.halt_key (e : Error) : (s.halt e).key = s.key := rfl
@[simp] theorem State.halt_run (e : Error) : (s.halt e).run = .halted := rfl
@[simp] theorem State.halt_await (e : Error) : (s.halt e).await = s.await := rfl
@[simp] theorem State.halt_err (e : Error) : (s.halt e).err = s.err.or (some e) := rfl
@[simp] theorem State.halt_dirty (e : Error) : (s.halt e).dirty = s.dirty := rfl
@[simp] theorem State.halt_draws (e : Error) : (s.halt e).draws = s.draws := rfl
@[simp] theorem State.halt_cfg (e : Error) : (s.halt e).cfg = s.cfg := rfl
@[simp] theorem State.halt_reg (e : Error) (q : Nibble) : (s.halt e).reg q = s.reg q := rfl
@[simp] theorem State.halt_readByte (e : Error) (q : Nat) : (s.halt e).readByte q = s.readByte q := rfl
@[simp] theorem State.halt_keyDown (e : Error) (q : Nibble) : (s.halt e).keyDown q = s.keyDown q := rfl

/-! ### loadRegs -/

@[simp] theorem State.loadRegs_I (x : Nibble) : (s.loadRegs x).I = s.I := rfl
@[simp] theorem State.loadRegs_pc (x : Nibble) : (s.loadRegs x).pc = s.pc := rfl
@[simp] theorem State.loadRegs_sp (x : Nibble) : (s.loadRegs x).sp = s.sp := rfl
@[simp] theorem State.loadRegs_stack (x : Nibble) : (s.loadRegs x).stack = s.stack := rfl
@[simp] theorem State.loadRegs_DT (x : Nibble) : (s.loadRegs x).DT = s.DT := rfl
@[simp] theorem State.loadRegs_ST (x : Nibble) : (s.loadRegs x).ST = s.ST := rfl
@[simp] theorem State.loadRegs_mem (x : Nibble) : (s.loadRegs x).mem = s.mem := rfl
@[simp] theorem State.loadRegs_fb (x : Nibble) : (s.loadRegs x).fb = s.fb := rfl
@[simp] theorem State.loadRegs_key (x : Nibble) : (s.loadRegs x).key = s.key := rfl
@[simp] theorem State.loadRegs_run (x : Nibble) : (s.loadRegs x).run = s.run := rfl
@[simp] theorem State.loadRegs_await (x : Nibble) : (s.loadRegs x).await = s.await := rfl
@[simp] theorem State.loadRegs_err (x : Nibble) : (s.loadRegs x).err = s.err := rfl
@[simp] theorem State.loadRegs_dirty (x : Nibble) : (s.loadRegs x).dirty = s.dirty := rfl
@[simp] theorem State.loadRegs_draws (x : Nibble) : (s.loadRegs x).draws = s.draws := rfl
@[simp] theorem State.loadRegs_cfg (x : Nibble) : (s.loadRegs x).cfg = s.cfg := rfl
@[simp] theorem State.loadRegs_readByte (x : Nibble) (q : Nat) : (s.loadRegs x).readByte q = s.readByte q := rfl
@[simp] theorem State.loadRegs_keyDown (x : Nibble) (q : Nibble) : (s.loadRegs x).keyDown q = s.keyDown q := rfl

/-! ### writeResultThenFlag -/

@[simp] theorem State.writeResultThenFlag_I (x : Nibble) (r f : Byte) : (s.writeResultThenFlag x r f).I = s.I := rfl
@[simp] theorem State.writeResultThenFlag_pc (x : Nibble) (r f : Byte) : (s.writeResultThenFlag x r f).pc = s.pc := rfl
@[simp] theorem State.writeResultThenFlag_sp (x : Nibble) (r f : Byte) : (s.writeResultThenFlag x r f).sp = s.sp := rfl
@[simp] theorem State.writeResultThenFlag_stack (x : Nibble) (r f : Byte) : (s.writeResultThenFlag x r f).stack = s.stack := rfl
@[simp] theorem State.writeResultThenFlag_DT (x : Nibble) (r f : Byte) : (s.writeResultThenFlag x r f).DT = s.DT := rfl
@[simp] theorem State.writeResultThenFlag_ST (x : Nibble) (r f : Byte) : (s.writeResultThenFlag x r f).ST = s.ST := rfl
@[simp] theorem State.writeResultThenFlag_mem (x : Nibble) (r f : Byte) : (s.writeResultThenFlag x r f).mem = s.mem := rfl
@[simp] theorem State.writeResultThenFlag_fb (x : Nibble) (r f : Byte) : (s.writeResultThenFlag x r f).fb = s.fb := rfl
@[simp] theorem State.writeResultThenFlag_key (x : Nibble) (r f : Byte) : (s.writeResultThenFlag x r f).key = s.key := rfl
@[simp] theorem State.writeResultThenFlag_run (x : Nibble) (r f : Byte) : (s.writeResultThenFlag x r f).run = s.run := rfl
@[simp] theorem State.writeResultThenFlag_await (x : Nibble) (r f : Byte) : (s.writeResultThenFlag x r f).await = s.await := rfl
@[simp] theorem State.writeResultThenFlag_err (x : Nibble) (r f : Byte) : (s.writeResultThenFlag x r f).err = s.err := rfl
@[simp] theorem State.writeResultThenFlag_dirty (x : Nibble) (r f : Byte) : (s.writeResultThenFlag x r f).dirty = s.dirty := rfl
@[simp] theorem State.writeResultThenFlag_draws (x : Nibble) (r f : Byte) : (s.writeResultThenFlag x r f).draws = s.draws := rfl
@[simp] theorem State.writeResultThenFlag_cfg (x : Nibble) (r f : Byte) : (s.writeResultThenFlag x r f).cfg = s.cfg := rfl
@[simp] theorem State.writeResultThenFlag_readByte (x : Nibble) (r f : Byte) (q : Nat) : (s.writeResultThenFlag x r f).readByte q = s.readByte q := rfl
@[simp] theorem State.writeResultThenFlag_keyDown (x : Nibble) (r f : Byte) (q : Nibble) : (s.writeResultThenFlag x r f).keyDown q = s.keyDown q := rfl

/-! ### moveIndex and writeLogicResult -/

@[simp] theorem State.moveIndex_V (x : Nibble) : (s.moveIndex x).V = s.V := by unfold State.moveIndex; split <;> rfl
@[simp] theorem State.moveIndex_pc (x : Nibble) : (s.moveIndex x).pc = s.pc := by unfold State.moveIndex; split <;> rfl
@[simp] theorem State.moveIndex_sp (x : Nibble) : (s.moveIndex x).sp = s.sp := by unfold State.moveIndex; split <;> rfl
@[simp] theorem State.moveIndex_stack (x : Nibble) : (s.moveIndex x).stack = s.stack := by unfold State.moveIndex; split <;> rfl
@[simp] theorem State.moveIndex_DT (x : Nibble) : (s.moveIndex x).DT = s.DT := by unfold State.moveIndex; split <;> rfl
@[simp] theorem State.moveIndex_ST (x : Nibble) : (s.moveIndex x).ST = s.ST := by unfold State.moveIndex; split <;> rfl
@[simp] theorem State.moveIndex_mem (x : Nibble) : (s.moveIndex x).mem = s.mem := by unfold State.moveIndex; split <;> rfl
@[simp] theorem State.moveIndex_fb (x : Nibble) : (s.moveIndex x).fb = s.fb := by unfold State.moveIndex; split <;> rfl
@[simp] theorem State.moveIndex_key (x : Nibble) : (s.moveIndex x).key = s.key := by unfold State.moveIndex; split <;> rfl
@[simp] theorem State.moveIndex_run (x : Nibble) : (s.moveIndex x).run = s.run := by unfold State.moveIndex; split <;> rfl
@[simp] theorem State.moveIndex_await (x : Nibble) : (s.moveIndex x).await = s.await := by unfold State.moveIndex; split <;> rfl
@[simp] theorem State.moveIndex_err (x : Nibble) : (s.moveIndex x).err = s.err := by unfold State.moveIndex; split <;> rfl
@[simp] theorem State.moveIndex_dirty (x : Nibble) : (s.moveIndex x).dirty = s.dirty := by unfold State.moveIndex; split <;> rfl
@[simp] theorem State.moveIndex_draws (x : Nibble) : (s.moveIndex x).draws = s.draws := by unfold State.moveIndex; split <;> rfl
@[simp] theorem State.moveIndex_cfg (x : Nibble) : (s.moveIndex x).cfg = s.cfg := by unfold State.moveIndex; split <;> rfl
@[simp] theorem State.moveIndex_reg (x : Nibble) (q : Nibble) : (s.moveIndex x).reg q = s.reg q := by unfold State.moveIndex; split <;> rfl
@[simp] theorem State.moveIndex_readByte (x : Nibble) (q : Nat) : (s.moveIndex x).readByte q = s.readByte q := by unfold State.moveIndex; split <;> rfl
@[simp] theorem State.moveIndex_keyDown (x : Nibble) (q : Nibble) : (s.moveIndex x).keyDown q = s.keyDown q := by unfold State.moveIndex; split <;> rfl
@[simp] theorem State.writeLogicResult_I (x : Nibble) (r : Byte) : (s.writeLogicResult x r).I = s.I := by unfold State.writeLogicResult; split <;> rfl
@[simp] theorem State.writeLogicResult_pc (x : Nibble) (r : Byte) : (s.writeLogicResult x r).pc = s.pc := by unfold State.writeLogicResult; split <;> rfl
@[simp] theorem State.writeLogicResult_sp (x : Nibble) (r : Byte) : (s.writeLogicResult x r).sp = s.sp := by unfold State.writeLogicResult; split <;> rfl
@[simp] theorem State.writeLogicResult_stack (x : Nibble) (r : Byte) : (s.writeLogicResult x r).stack = s.stack := by unfold State.writeLogicResult; split <;> rfl
@[simp] theorem State.writeLogicResult_DT (x : Nibble) (r : Byte) : (s.writeLogicResult x r).DT = s.DT := by unfold State.writeLogicResult; split <;> rfl
@[simp] theorem State.writeLogicResult_ST (x : Nibble) (r : Byte) : (s.writeLogicResult x r).ST = s.ST := by unfold State.writeLogicResult; split <;> rfl
@[simp] theorem State.writeLogicResult_mem (x : Nibble) (r : Byte) : (s.writeLogicResult x r).mem = s.mem := by unfold State.writeLogicResult; split <;> rfl
@[simp] theorem State.writeLogicResult_fb (x : Nibble) (r : Byte) : (s.writeLogicResult x r).fb = s.fb := by unfold State.writeLogicResult; split <;> rfl
@[simp] theorem State.writeLogicResult_key (x : Nibble) (r : Byte) : (s.writeLogicResult x r).key = s.key := by unfold State.writeLogicResult; split <;> rfl
@[simp] theorem State.writeLogicResult_run (x : Nibble) (r : Byte) : (s.writeLogicResult x r).run = s.run := by unfold State.writeLogicResult; split <;> rfl
@[simp] theorem State.writeLogicResult_await (x : Nibble) (r : Byte) : (s.writeLogicResult x r).await = s.await := by unfold State.writeLogicResult; split <;> rfl
@[simp] theorem State.writeLogicResult_err (x : Nibble) (r : Byte) : (s.writeLogicResult x r).err = s.err := by unfold State.writeLogicResult; split <;> rfl
@[simp] theorem State.writeLogicResult_dirty (x : Nibble) (r : Byte) : (s.writeLogicResult x r).dirty = s.dirty := by unfold State.writeLogicResult; split <;> rfl
@[simp] theorem State.writeLogicResult_draws (x : Nibble) (r : Byte) : (s.writeLogicResult x r).draws = s.draws := by unfold State.writeLogicResult; split <;> rfl
@[simp] theorem State.writeLogicResult_cfg (x : Nibble) (r : Byte) : (s.writeLogicResult x r).cfg = s.cfg := by unfold State.writeLogicResult; split <;> rfl
@[simp] theorem State.writeLogicResult_readByte (x : Nibble) (r : Byte) (q : Nat) : (s.writeLogicResult x r).readByte q = s.readByte q := by unfold State.writeLogicResult; split <;> rfl
@[simp] theorem State.writeLogicResult_keyDown (x : Nibble) (r : Byte) (q : Nibble) : (s.writeLogicResult x r).keyDown q = s.keyDown q := by unfold State.writeLogicResult; split <;> rfl

end Sys2Proof.Machine
end

