-- ==== Sys2Proof/Laws/Ops.lean ====
section
/-! SUPPORT. For each shared operation, what it can do, said once: registers and flags, the stack, memory through State,
the operand checks, entering a fault, the pixels, the fetch and the cycle. -/

namespace Sys2Proof.Machine

variable (s : State)

/-! ### Registers and flags -/

theorem State.setReg_reg (x q : Nibble) (v : Byte) :
    (s.setReg x v).reg q = if q = x then v else s.reg q := by
  simp only [State.reg, State.setReg, Vector.getElem_set, BitVec.toNat_inj]
  split <;> simp_all [eq_comm]

@[simp] theorem State.setReg_reg_self (x : Nibble) (v : Byte) : (s.setReg x v).reg x = v := by
  simp [State.setReg_reg]

theorem State.setReg_reg_of_ne {x q : Nibble} (v : Byte) (h : q ≠ x) : (s.setReg x v).reg q = s.reg q := by
  simp [State.setReg_reg, h]

theorem State.setVF_reg (q : Nibble) (f : Byte) : (s.setVF f).reg q = if q = VF then f else s.reg q :=
  State.setReg_reg s VF q f

/-- VF ends holding the flag, also when it is the destination. -/
theorem State.writeResultThenFlag_reg (x q : Nibble) (r f : Byte) :
    (s.writeResultThenFlag x r f).reg q = if q = VF then f else if q = x then r else s.reg q := by
  simp only [State.writeResultThenFlag, State.setVF_reg, State.setReg_reg]

theorem State.writeLogicResult_reg (x q : Nibble) (r : Byte) :
    (s.writeLogicResult x r).reg q =
      if s.cfg.logicResetsVF = true ∧ q = VF then 0 else if q = x then r else s.reg q := by
  unfold State.writeLogicResult
  by_cases h : s.cfg.logicResetsVF = true <;> simp [h, State.writeResultThenFlag_reg, State.setReg_reg]

theorem State.loadRegs_reg (x q : Nibble) :
    (s.loadRegs x).reg q =
      if q.toNat ≤ x.toNat then s.readByte (s.I.toNat + q.toNat) else s.reg q := by
  simp [State.loadRegs, State.reg]

theorem State.moveIndex_I (x : Nibble) :
    (s.moveIndex x).I =
      if s.cfg.loadStoreIncrementsI = true then s.I + BitVec.ofNat 16 (x.toNat + 1) else s.I := by
  unfold State.moveIndex
  split <;> simp_all

theorem flagByte_eq (b : Bool) : flagByte b = if b = true then 1 else 0 := rfl

/-! ### The stack -/

theorem State.push_of_lt (v : Word) (h : s.sp.val < 16) :
    s.push v = some (s.setStack ⟨s.sp.val + 1, by omega⟩ (s.stack.set s.sp.val v h)) := by
  simp [State.push, h]

theorem State.push_eq_none_iff (v : Word) : s.push v = none ↔ s.sp.val = 16 := by
  have := s.sp.isLt
  unfold State.push
  split <;> simp <;> omega

theorem State.pop_of_pos (h : 0 < s.sp.val) :
    s.pop = some (s.stack[s.sp.val - 1]'(by omega), s.setStack ⟨s.sp.val - 1, by omega⟩ s.stack) := by
  simp [State.pop, h]

theorem State.pop_eq_none_iff : s.pop = none ↔ s.sp.val = 0 := by
  unfold State.pop
  split <;> simp <;> omega

/-! ### Memory through State -/

theorem State.storeBytes_readByte_outside (a : Nat) (vs : List Byte) {b : Nat} (h : b < a ∨ a + vs.length ≤ b) :
    (s.storeBytes a vs).readByte b = s.readByte b :=
  Memory.read_writeList_of_outside _ _ _ _ h

theorem State.storeBytes_readByte {a : Nat} {vs : List Byte} (hm : MemCanonical s) (h : a + vs.length ≤ memSize)
    {k : Nat} (hk : k < vs.length) : (s.storeBytes a vs).readByte (a + k) = vs[k] :=
  Memory.read_writeList _ hm a vs h hk

theorem State.storeBytes_canonical {a : Nat} {vs : List Byte} (hm : MemCanonical s) (h : a + vs.length ≤ memSize) :
    MemCanonical (s.storeBytes a vs) :=
  Memory.wf_writeList _ hm a vs h

theorem State.reset_canonical : MemCanonical State.reset := rfl

/-! ### The memory map (00_scope.md R8, 20_memory.md R68) -/

theorem memMax_eq : memMax + 1 = memSize := rfl

theorem programStart_eq : programStart.toNat = reservedEnd + 1 := rfl

theorem romMax_eq : programStart.toNat + romMax = memSize := rfl

theorem fontEnd_le : fontEnd ≤ reservedEnd + 1 := by decide

/-- A load leaves the reserved region, the font in it, as it was. -/
theorem loadRom_readByte_reserved (bytes : List Byte) {a : Nat} (h : a ≤ reservedEnd) :
    (loadRom bytes s).1.readByte a = s.readByte a := by
  unfold loadRom
  split
  · rfl
  · exact State.storeBytes_readByte_outside s _ _ (.inl (by rw [programStart_eq]; omega))

/-! ### Operand checks -/

theorem inMemory_iff (a : Nat) : inMemory a = true ↔ a ≤ 0xFFF := by
  rw [inMemory, decide_eq_true_eq, memSize]; omega

theorem State.spanInBounds_succ (n : Nat) : s.spanInBounds (n + 1) = decide (s.I.toNat + n ≤ 0xFFF) := by
  simp only [State.spanInBounds, inMemory, memSize, Nat.add_sub_cancel]
  rw [show (n + 1 == 0) = false from rfl, Bool.false_or]
  exact decide_eq_decide.2 (by omega)

@[simp] theorem State.spanInBounds_zero : s.spanInBounds 0 = true := rfl

theorem State.keyOperand_eq_some (x : Nibble) (h : (s.reg x).toNat ≤ 0x0F) :
    s.keyOperand x = some ((s.reg x).setWidth 4) := by
  simp [State.keyOperand, h]

theorem State.keyOperand_eq_none (x : Nibble) (h : 0x0F < (s.reg x).toNat) : s.keyOperand x = none := by
  simp [State.keyOperand]; omega

theorem State.regsThrough_length (x : Nibble) : (s.regsThrough x).length = x.toNat + 1 := by
  have : x.toNat < 16 := x.isLt
  simp [State.regsThrough]; omega

/-! ### Entering a fault -/

theorem State.halt_entersHalted (e : Error) : EntersHalted e s (s.halt e) := by
  refine ⟨rfl, ?_, ?_⟩
  · cases h : s.err <;> simp [h]
  · intro p hp
    cases p <;> simp_all [Part.same]

theorem raise_eq (e : Error) : raise e s = .next (s.halt e) := rfl

/-! ### The keypad -/

theorem State.setKeyState_keyDown (k q : Nibble) (p : Bool) :
    (s.setKeyState k p).keyDown q = if q = k then p else s.keyDown q := by
  simp only [State.keyDown, State.setKeyState, Vector.getElem_set, BitVec.toNat_inj]
  split <;> simp_all [eq_comm]

/-! ### Pixels -/

theorem blankScreen_pixel (px : Fin 64) (py : Fin 32) : blankScreen.pixel px py = false := by
  simp [Framebuffer.pixel, blankScreen]

/-- `xorPixel` flips its own pixel and no other. -/
theorem Framebuffer.xorPixel_pixel (f : Framebuffer) (px qx : Fin 64) (py qy : Fin 32) :
    (f.xorPixel px py).1.pixel qx qy = (f.pixel qx qy ^^ decide (qx = px ∧ qy = py)) := by
  by_cases hx : qx = px
  · subst hx
    by_cases hy : qy = py
    · subst hy
      simp [Framebuffer.xorPixel, Framebuffer.pixel]
    · have : py.val ≠ qy.val := fun h => hy (Fin.ext h.symm)
      simp [Framebuffer.xorPixel, Framebuffer.pixel, hy, this]
  · have : px.val ≠ qx.val := fun h => hx (Fin.ext h.symm)
    simp [Framebuffer.xorPixel, Framebuffer.pixel, hx, this]

/-! ### Fetch and cycle -/

theorem State.fetch_of_le (h : s.pc.toNat ≤ 0xFFE) :
    s.fetch = some (wordOfBytes (s.readByte s.pc.toNat) (s.readByte (s.pc.toNat + 1))) := by
  have h1 : inMemory s.pc.toNat = true := by rw [inMemory_iff]; omega
  have h2 : inMemory (s.pc.toNat + 1) = true := by rw [inMemory_iff]; omega
  simp [State.fetch, State.memRead, h1, h2]

theorem State.fetch_of_gt (h : 0xFFE < s.pc.toNat) : s.fetch = none := by
  have h2 : inMemory (s.pc.toNat + 1) = false := by rw [← Bool.not_eq_true, inMemory_iff]; omega
  simp only [State.fetch, State.memRead, h2]
  split <;> simp_all

/-- What a step can do: the four cases of 10_state.md R51. -/
theorem step_cases :
    (s.run = .halted ∧ step s = .fault (.halted s.err)) ∨
    (s.run = .running ∧ s.await ≠ none ∧ step s = .next (s.setDirty false)) ∨
    (s.run = .running ∧ s.await = none ∧
      ((0xFFE < s.pc.toNat ∧ step s = .next ((s.setDirty false).halt .outOfBounds)) ∨
       (s.pc.toNat ≤ 0xFFE ∧
        match decode (wordOfBytes (s.readByte s.pc.toNat) (s.readByte (s.pc.toNat + 1))) with
        | .ok i => step s = exec i (s.setDirty false)
        | .error _ => step s = .next ((s.setDirty false).halt .illegalOpcode)))) := by
  unfold step cycle
  cases hr : s.run with
  | halted => simp
  | running =>
    cases ha : s.await with
    | some x => simp
    | none =>
      simp only [fetchDecodeExecute]
      by_cases hp : s.pc.toNat ≤ 0xFFE
      · right; right
        refine ⟨trivial, trivial, .inr ⟨hp, ?_⟩⟩
        rw [State.fetch_of_le (s.setDirty false) hp]
        simp only [State.setDirty_pc, State.setDirty_readByte]
        split <;> simp_all [raise_eq]
      · right; right
        refine ⟨trivial, trivial, .inl ⟨by omega, ?_⟩⟩
        rw [State.fetch_of_gt (s.setDirty false) (by simp; omega)]
        rfl

end Sys2Proof.Machine
end

