-- ==== Sys2Proof/Laws/Exec.lean ====
section
/-! SUPPORT. The instructions that can fault, each side of the check as one equation; and that every instruction answers a
next state. The other instructions' meanings are a next state by rfl. -/

namespace Sys2Proof.Machine

variable (s : State)

theorem spanInBounds_drw_iff (n : Nibble) :
    s.spanInBounds n.toNat = true ↔ n.toNat = 0 ∨ s.I.toNat + n.toNat - 1 ≤ 0xFFF := by
  rcases Nat.eq_zero_or_pos n.toNat with h | h
  · simp [h]
  · obtain ⟨m, hm⟩ : ∃ m, n.toNat = m + 1 := ⟨n.toNat - 1, by omega⟩
    rw [hm, State.spanInBounds_succ, decide_eq_true_eq]
    omega

theorem execRet_of_pos (h : 0 < s.sp.val) :
    execRet s = .next ((s.setStack ⟨s.sp.val - 1, by omega⟩ s.stack).setPc (s.stack[s.sp.val - 1]'(by omega))) := by
  rw [execRet, State.pop_of_pos s h]

theorem execRet_of_empty (h : s.sp.val = 0) : execRet s = .next (s.halt .stackUnderflow) := by
  rw [execRet, (State.pop_eq_none_iff s).2 h]; rfl

theorem execCall_of_lt (nnn : Addr12) (h : s.sp.val < 16) :
    execCall nnn s = .next ((s.setStack ⟨s.sp.val + 1, by omega⟩
      (s.stack.set s.sp.val (s.pc + instrLen) h)).setPc (addressOf nnn)) := by
  rw [execCall, State.push_of_lt s _ h]

theorem execCall_of_full (nnn : Addr12) (h : s.sp.val = 16) : execCall nnn s = .next (s.halt .stackOverflow) := by
  rw [execCall, (State.push_eq_none_iff s _).2 h]; rfl

theorem execSkp_of_le (x : Nibble) (h : (s.reg x).toNat ≤ 0x0F) :
    execSkp x s = .next (s.skipIf (s.keyDown ((s.reg x).setWidth 4))) := by
  rw [execSkp, State.keyOperand_eq_some s x h]

theorem execSkp_of_gt (x : Nibble) (h : 0x0F < (s.reg x).toNat) : execSkp x s = .next (s.halt .outOfBounds) := by
  rw [execSkp, State.keyOperand_eq_none s x h]; rfl

theorem execSknp_of_le (x : Nibble) (h : (s.reg x).toNat ≤ 0x0F) :
    execSknp x s = .next (s.skipIf (!s.keyDown ((s.reg x).setWidth 4))) := by
  rw [execSknp, State.keyOperand_eq_some s x h]

theorem execSknp_of_gt (x : Nibble) (h : 0x0F < (s.reg x).toNat) : execSknp x s = .next (s.halt .outOfBounds) := by
  rw [execSknp, State.keyOperand_eq_none s x h]; rfl

theorem execLdBVx_of_le (x : Nibble) (h : s.I.toNat + 2 ≤ 0xFFF) :
    execLdBVx x s = .next ((s.storeBytes s.I.toNat (decimalDigits (s.reg x))).advance instrLen) := by
  rw [execLdBVx, State.spanInBounds_succ s 2, if_pos (decide_eq_true h)]

theorem execLdBVx_of_gt (x : Nibble) (h : 0xFFF < s.I.toNat + 2) : execLdBVx x s = .next (s.halt .outOfBounds) := by
  rw [execLdBVx, State.spanInBounds_succ s 2, if_neg (by rw [decide_eq_true_eq]; omega)]; rfl

theorem execLdMemVx_of_le (x : Nibble) (h : s.I.toNat + x.toNat ≤ 0xFFF) :
    execLdMemVx x s = .next (((s.storeBytes s.I.toNat (s.regsThrough x)).moveIndex x).advance instrLen) := by
  rw [execLdMemVx, State.spanInBounds_succ, if_pos (decide_eq_true h)]

theorem execLdMemVx_of_gt (x : Nibble) (h : 0xFFF < s.I.toNat + x.toNat) :
    execLdMemVx x s = .next (s.halt .outOfBounds) := by
  rw [execLdMemVx, State.spanInBounds_succ, if_neg (by rw [decide_eq_true_eq]; omega)]; rfl

theorem execLdVxMem_of_le (x : Nibble) (h : s.I.toNat + x.toNat ≤ 0xFFF) :
    execLdVxMem x s = .next (((s.loadRegs x).moveIndex x).advance instrLen) := by
  rw [execLdVxMem, State.spanInBounds_succ, if_pos (decide_eq_true h)]

theorem execLdVxMem_of_gt (x : Nibble) (h : 0xFFF < s.I.toNat + x.toNat) :
    execLdVxMem x s = .next (s.halt .outOfBounds) := by
  rw [execLdVxMem, State.spanInBounds_succ, if_neg (by rw [decide_eq_true_eq]; omega)]; rfl

theorem execDrw_of_inBounds (x y n : Nibble) (h : n.toNat = 0 ∨ s.I.toNat + n.toNat - 1 ≤ 0xFFF) :
    execDrw x y n s = .next ((((s.setFb (s.drawSprite (s.reg x) (s.reg y) n.toNat).1).setVF
      (flagByte (s.drawSprite (s.reg x) (s.reg y) n.toNat).2)).setDirty true).advance instrLen) := by
  rw [execDrw, if_pos ((spanInBounds_drw_iff s n).2 h)]

theorem execDrw_of_outOfBounds (x y n : Nibble) (h0 : 1 ≤ n.toNat) (h : 0xFFF < s.I.toNat + n.toNat - 1) :
    execDrw x y n s = .next (s.halt .outOfBounds) := by
  rw [execDrw, if_neg (by rw [spanInBounds_drw_iff]; omega)]; rfl

/-- No instruction is refused and none stops the machine by an outcome `fault`: a fault of the spec is a next state. -/
theorem exec_answers_next (i : Instr) : ∃ t, exec i s = .next t := by
  cases i <;> simp only [exec]
  case ret => unfold execRet; split <;> exact ⟨_, rfl⟩
  case call => unfold execCall; split <;> exact ⟨_, rfl⟩
  case drw => unfold execDrw; split <;> exact ⟨_, rfl⟩
  case skp => unfold execSkp; split <;> exact ⟨_, rfl⟩
  case sknp => unfold execSknp; split <;> exact ⟨_, rfl⟩
  case ldBVx => unfold execLdBVx; split <;> exact ⟨_, rfl⟩
  case ldMemVx => unfold execLdMemVx; split <;> exact ⟨_, rfl⟩
  case ldVxMem => unfold execLdVxMem; split <;> exact ⟨_, rfl⟩
  all_goals exact ⟨_, rfl⟩

end Sys2Proof.Machine
end

