-- ==== Sys2Proof/Laws/PerInstr.lean ====
section
/-! SUPPORT. The per-instruction family EncodingMatchesRow: an instruction's word matches its row of 30_encoding.md R84,
and the row is one of the 35. -/

namespace Sys2Proof.Laws

open Sys2Proof

theorem nibble_and_ones (op : Nibble) : op &&& 15#4 = op := BitVec.and_allOnes

/-- The fixed bits of format NNN survive the mask 0xF000. -/
theorem formatNNN_and_mask (op : Nibble) (nnn : Addr12) : formatNNN op nnn &&& 0xF000 = op ++ (0#12 : Addr12) := by
  rw [formatNNN, show (0xF000 : Word) = (0xF#4 : Nibble) ++ (0x000#12 : Addr12) from rfl, BitVec.and_append]
  simp [nibble_and_ones]

theorem formatXKK_and_mask (op x : Nibble) (kk m : Byte) :
    formatXKK op x kk &&& ((0xF#4 ++ 0x0#4 : Byte) ++ m) = (op ++ (0x0#4 : Nibble)) ++ (kk &&& m) := by
  rw [formatXKK, BitVec.and_append, BitVec.and_append]
  simp [nibble_and_ones]

theorem formatXYN_and_mask (op x y n m : Nibble) :
    formatXYN op x y n &&& ((0xF#4 ++ 0x0#4 : Byte) ++ ((0x0#4 : Nibble) ++ m)) =
      (op ++ (0x0#4 : Nibble)) ++ ((0x0#4 : Nibble) ++ (n &&& m)) := by
  rw [formatXYN, BitVec.and_append, BitVec.and_append, BitVec.and_append]
  simp [nibble_and_ones]

theorem formatXKK_and_opMask (op x : Nibble) (kk : Byte) :
    formatXKK op x kk &&& 0xF000 = (op ++ (0x0#4 : Nibble)) ++ (0x00#8 : Byte) :=
  (formatXKK_and_mask op x kk 0x00).trans (by rw [show kk &&& 0x00 = 0 from BitVec.and_zero]; rfl)

theorem formatXYN_and_opMask (op x y n : Nibble) :
    formatXYN op x y n &&& 0xF000 = (op ++ (0x0#4 : Nibble)) ++ ((0x0#4 : Nibble) ++ (0x0#4 : Nibble)) :=
  (formatXYN_and_mask op x y n 0x0).trans (by rw [show n &&& 0x0 = 0 from BitVec.and_zero]; rfl)

def EncodingMatchesRow.Statement (i : Instr) : Prop :=
  i.wellFormed = true → (rowOf i).matches (encode i) = true ∧ rowOf i ∈ opcodeRows

theorem EncodingMatchesRow.cls : EncodingMatchesRow.Statement .cls :=
  fun _ => by decide

theorem EncodingMatchesRow.ret : EncodingMatchesRow.Statement .ret :=
  fun _ => by decide

theorem EncodingMatchesRow.sys (nnn : Addr12) : EncodingMatchesRow.Statement (.sys nnn) :=
  fun _ => ⟨beq_iff_eq.2 ((formatNNN_and_mask _ nnn).trans rfl), (by decide : OpcodeRow.mk 0x0000 0xF000 ∈ opcodeRows)⟩

theorem EncodingMatchesRow.jp (nnn : Addr12) : EncodingMatchesRow.Statement (.jp nnn) :=
  fun _ => ⟨beq_iff_eq.2 ((formatNNN_and_mask _ nnn).trans rfl), (by decide : OpcodeRow.mk 0x1000 0xF000 ∈ opcodeRows)⟩

theorem EncodingMatchesRow.call (nnn : Addr12) : EncodingMatchesRow.Statement (.call nnn) :=
  fun _ => ⟨beq_iff_eq.2 ((formatNNN_and_mask _ nnn).trans rfl), (by decide : OpcodeRow.mk 0x2000 0xF000 ∈ opcodeRows)⟩

theorem EncodingMatchesRow.seImm (x : Nibble) (kk : Byte) : EncodingMatchesRow.Statement (.seImm x kk) :=
  fun _ => ⟨beq_iff_eq.2 ((formatXKK_and_opMask _ x kk).trans rfl), (by decide : OpcodeRow.mk 0x3000 0xF000 ∈ opcodeRows)⟩

theorem EncodingMatchesRow.sneImm (x : Nibble) (kk : Byte) : EncodingMatchesRow.Statement (.sneImm x kk) :=
  fun _ => ⟨beq_iff_eq.2 ((formatXKK_and_opMask _ x kk).trans rfl), (by decide : OpcodeRow.mk 0x4000 0xF000 ∈ opcodeRows)⟩

theorem EncodingMatchesRow.seReg (x : Nibble) (y : Nibble) : EncodingMatchesRow.Statement (.seReg x y) :=
  fun _ => ⟨beq_iff_eq.2 ((formatXYN_and_mask _ x y _ 0xF).trans rfl), (by decide : OpcodeRow.mk 0x5000 0xF00F ∈ opcodeRows)⟩

theorem EncodingMatchesRow.ldImm (x : Nibble) (kk : Byte) : EncodingMatchesRow.Statement (.ldImm x kk) :=
  fun _ => ⟨beq_iff_eq.2 ((formatXKK_and_opMask _ x kk).trans rfl), (by decide : OpcodeRow.mk 0x6000 0xF000 ∈ opcodeRows)⟩

theorem EncodingMatchesRow.addImm (x : Nibble) (kk : Byte) : EncodingMatchesRow.Statement (.addImm x kk) :=
  fun _ => ⟨beq_iff_eq.2 ((formatXKK_and_opMask _ x kk).trans rfl), (by decide : OpcodeRow.mk 0x7000 0xF000 ∈ opcodeRows)⟩

theorem EncodingMatchesRow.ldReg (x : Nibble) (y : Nibble) : EncodingMatchesRow.Statement (.ldReg x y) :=
  fun _ => ⟨beq_iff_eq.2 ((formatXYN_and_mask _ x y _ 0xF).trans rfl), (by decide : OpcodeRow.mk 0x8000 0xF00F ∈ opcodeRows)⟩

theorem EncodingMatchesRow.or (x : Nibble) (y : Nibble) : EncodingMatchesRow.Statement (.or x y) :=
  fun _ => ⟨beq_iff_eq.2 ((formatXYN_and_mask _ x y _ 0xF).trans rfl), (by decide : OpcodeRow.mk 0x8001 0xF00F ∈ opcodeRows)⟩

theorem EncodingMatchesRow.and (x : Nibble) (y : Nibble) : EncodingMatchesRow.Statement (.and x y) :=
  fun _ => ⟨beq_iff_eq.2 ((formatXYN_and_mask _ x y _ 0xF).trans rfl), (by decide : OpcodeRow.mk 0x8002 0xF00F ∈ opcodeRows)⟩

theorem EncodingMatchesRow.xor (x : Nibble) (y : Nibble) : EncodingMatchesRow.Statement (.xor x y) :=
  fun _ => ⟨beq_iff_eq.2 ((formatXYN_and_mask _ x y _ 0xF).trans rfl), (by decide : OpcodeRow.mk 0x8003 0xF00F ∈ opcodeRows)⟩

theorem EncodingMatchesRow.addReg (x : Nibble) (y : Nibble) : EncodingMatchesRow.Statement (.addReg x y) :=
  fun _ => ⟨beq_iff_eq.2 ((formatXYN_and_mask _ x y _ 0xF).trans rfl), (by decide : OpcodeRow.mk 0x8004 0xF00F ∈ opcodeRows)⟩

theorem EncodingMatchesRow.sub (x : Nibble) (y : Nibble) : EncodingMatchesRow.Statement (.sub x y) :=
  fun _ => ⟨beq_iff_eq.2 ((formatXYN_and_mask _ x y _ 0xF).trans rfl), (by decide : OpcodeRow.mk 0x8005 0xF00F ∈ opcodeRows)⟩

theorem EncodingMatchesRow.shr (x : Nibble) (y : Nibble) : EncodingMatchesRow.Statement (.shr x y) :=
  fun _ => ⟨beq_iff_eq.2 ((formatXYN_and_mask _ x y _ 0xF).trans rfl), (by decide : OpcodeRow.mk 0x8006 0xF00F ∈ opcodeRows)⟩

theorem EncodingMatchesRow.subn (x : Nibble) (y : Nibble) : EncodingMatchesRow.Statement (.subn x y) :=
  fun _ => ⟨beq_iff_eq.2 ((formatXYN_and_mask _ x y _ 0xF).trans rfl), (by decide : OpcodeRow.mk 0x8007 0xF00F ∈ opcodeRows)⟩

theorem EncodingMatchesRow.shl (x : Nibble) (y : Nibble) : EncodingMatchesRow.Statement (.shl x y) :=
  fun _ => ⟨beq_iff_eq.2 ((formatXYN_and_mask _ x y _ 0xF).trans rfl), (by decide : OpcodeRow.mk 0x800E 0xF00F ∈ opcodeRows)⟩

theorem EncodingMatchesRow.sneReg (x : Nibble) (y : Nibble) : EncodingMatchesRow.Statement (.sneReg x y) :=
  fun _ => ⟨beq_iff_eq.2 ((formatXYN_and_mask _ x y _ 0xF).trans rfl), (by decide : OpcodeRow.mk 0x9000 0xF00F ∈ opcodeRows)⟩

theorem EncodingMatchesRow.ldI (nnn : Addr12) : EncodingMatchesRow.Statement (.ldI nnn) :=
  fun _ => ⟨beq_iff_eq.2 ((formatNNN_and_mask _ nnn).trans rfl), (by decide : OpcodeRow.mk 0xA000 0xF000 ∈ opcodeRows)⟩

theorem EncodingMatchesRow.jpV0 (nnn : Addr12) : EncodingMatchesRow.Statement (.jpV0 nnn) :=
  fun _ => ⟨beq_iff_eq.2 ((formatNNN_and_mask _ nnn).trans rfl), (by decide : OpcodeRow.mk 0xB000 0xF000 ∈ opcodeRows)⟩

theorem EncodingMatchesRow.rnd (x : Nibble) (kk : Byte) : EncodingMatchesRow.Statement (.rnd x kk) :=
  fun _ => ⟨beq_iff_eq.2 ((formatXKK_and_opMask _ x kk).trans rfl), (by decide : OpcodeRow.mk 0xC000 0xF000 ∈ opcodeRows)⟩

theorem EncodingMatchesRow.drw (x : Nibble) (y : Nibble) (n : Nibble) : EncodingMatchesRow.Statement (.drw x y n) :=
  fun _ => ⟨beq_iff_eq.2 ((formatXYN_and_opMask _ x y n).trans rfl), (by decide : OpcodeRow.mk 0xD000 0xF000 ∈ opcodeRows)⟩

theorem EncodingMatchesRow.skp (x : Nibble) : EncodingMatchesRow.Statement (.skp x) :=
  fun _ => ⟨beq_iff_eq.2 ((formatXKK_and_mask _ x _ 0xFF).trans rfl), (by decide : OpcodeRow.mk 0xE09E 0xF0FF ∈ opcodeRows)⟩

theorem EncodingMatchesRow.sknp (x : Nibble) : EncodingMatchesRow.Statement (.sknp x) :=
  fun _ => ⟨beq_iff_eq.2 ((formatXKK_and_mask _ x _ 0xFF).trans rfl), (by decide : OpcodeRow.mk 0xE0A1 0xF0FF ∈ opcodeRows)⟩

theorem EncodingMatchesRow.ldVxDt (x : Nibble) : EncodingMatchesRow.Statement (.ldVxDt x) :=
  fun _ => ⟨beq_iff_eq.2 ((formatXKK_and_mask _ x _ 0xFF).trans rfl), (by decide : OpcodeRow.mk 0xF007 0xF0FF ∈ opcodeRows)⟩

theorem EncodingMatchesRow.ldVxK (x : Nibble) : EncodingMatchesRow.Statement (.ldVxK x) :=
  fun _ => ⟨beq_iff_eq.2 ((formatXKK_and_mask _ x _ 0xFF).trans rfl), (by decide : OpcodeRow.mk 0xF00A 0xF0FF ∈ opcodeRows)⟩

theorem EncodingMatchesRow.ldDtVx (x : Nibble) : EncodingMatchesRow.Statement (.ldDtVx x) :=
  fun _ => ⟨beq_iff_eq.2 ((formatXKK_and_mask _ x _ 0xFF).trans rfl), (by decide : OpcodeRow.mk 0xF015 0xF0FF ∈ opcodeRows)⟩

theorem EncodingMatchesRow.ldStVx (x : Nibble) : EncodingMatchesRow.Statement (.ldStVx x) :=
  fun _ => ⟨beq_iff_eq.2 ((formatXKK_and_mask _ x _ 0xFF).trans rfl), (by decide : OpcodeRow.mk 0xF018 0xF0FF ∈ opcodeRows)⟩

theorem EncodingMatchesRow.addIVx (x : Nibble) : EncodingMatchesRow.Statement (.addIVx x) :=
  fun _ => ⟨beq_iff_eq.2 ((formatXKK_and_mask _ x _ 0xFF).trans rfl), (by decide : OpcodeRow.mk 0xF01E 0xF0FF ∈ opcodeRows)⟩

theorem EncodingMatchesRow.ldFVx (x : Nibble) : EncodingMatchesRow.Statement (.ldFVx x) :=
  fun _ => ⟨beq_iff_eq.2 ((formatXKK_and_mask _ x _ 0xFF).trans rfl), (by decide : OpcodeRow.mk 0xF029 0xF0FF ∈ opcodeRows)⟩

theorem EncodingMatchesRow.ldBVx (x : Nibble) : EncodingMatchesRow.Statement (.ldBVx x) :=
  fun _ => ⟨beq_iff_eq.2 ((formatXKK_and_mask _ x _ 0xFF).trans rfl), (by decide : OpcodeRow.mk 0xF033 0xF0FF ∈ opcodeRows)⟩

theorem EncodingMatchesRow.ldMemVx (x : Nibble) : EncodingMatchesRow.Statement (.ldMemVx x) :=
  fun _ => ⟨beq_iff_eq.2 ((formatXKK_and_mask _ x _ 0xFF).trans rfl), (by decide : OpcodeRow.mk 0xF055 0xF0FF ∈ opcodeRows)⟩

theorem EncodingMatchesRow.ldVxMem (x : Nibble) : EncodingMatchesRow.Statement (.ldVxMem x) :=
  fun _ => ⟨beq_iff_eq.2 ((formatXKK_and_mask _ x _ 0xFF).trans rfl), (by decide : OpcodeRow.mk 0xF065 0xF0FF ∈ opcodeRows)⟩

end Sys2Proof.Laws
end

