-- ==== Sys2Proof/Tests/Slice0.lean ====
section
/-! SUPPORT. The model's own tests: each instruction's word written out bit by bit from 30_encoding.md R80 and R84; the
well-formedness smoke test; single steps with results from 95_test_vectors.md (named in each comment); and, for every
statement with hypotheses, a witness that meets them. -/

namespace Sys2Proof.Tests

open Sys2Proof Sys2Proof.Machine

/-! ### Decode: one word per constructor, from the patterns of 30_encoding.md R80 and R84 -/

theorem test_decode_cls : decode 0b0000000011100000 = .ok .cls := by decide
theorem test_decode_ret : decode 0b0000000011101110 = .ok .ret := by decide
theorem test_decode_sys : decode 0b0000000100100011 = .ok (.sys 0x123) := by decide
theorem test_decode_jp : decode 0b0001001000110100 = .ok (.jp 0x234) := by decide
theorem test_decode_call : decode 0b0010001000010000 = .ok (.call 0x210) := by decide
theorem test_decode_seImm : decode 0b0011001100010000 = .ok (.seImm 0x3 0x10) := by decide
theorem test_decode_sneImm : decode 0b0100001100010001 = .ok (.sneImm 0x3 0x11) := by decide
theorem test_decode_seReg : decode 0b0101000100100000 = .ok (.seReg 0x1 0x2) := by decide
theorem test_decode_ldImm : decode 0b0110101001000010 = .ok (.ldImm 0xA 0x42) := by decide
theorem test_decode_addImm : decode 0b0111000100000010 = .ok (.addImm 0x1 0x02) := by decide
theorem test_decode_ldReg : decode 0b1000000100100000 = .ok (.ldReg 0x1 0x2) := by decide
theorem test_decode_or : decode 0b1000000100100001 = .ok (.or 0x1 0x2) := by decide
theorem test_decode_and : decode 0b1000000100100010 = .ok (.and 0x1 0x2) := by decide
theorem test_decode_xor : decode 0b1000000100100011 = .ok (.xor 0x1 0x2) := by decide
theorem test_decode_addReg : decode 0b1000000100100100 = .ok (.addReg 0x1 0x2) := by decide
theorem test_decode_sub : decode 0b1000000100100101 = .ok (.sub 0x1 0x2) := by decide
theorem test_decode_shr : decode 0b1000000100100110 = .ok (.shr 0x1 0x2) := by decide
theorem test_decode_subn : decode 0b1000000100100111 = .ok (.subn 0x1 0x2) := by decide
theorem test_decode_shl : decode 0b1000000100101110 = .ok (.shl 0x1 0x2) := by decide
theorem test_decode_sneReg : decode 0b1001000100100000 = .ok (.sneReg 0x1 0x2) := by decide
theorem test_decode_ldI : decode 0b1010001100000000 = .ok (.ldI 0x300) := by decide
theorem test_decode_jpV0 : decode 0b1011001100000000 = .ok (.jpV0 0x300) := by decide
theorem test_decode_rnd : decode 0b1100001100001111 = .ok (.rnd 0x3 0x0F) := by decide
theorem test_decode_drw : decode 0b1101000100100101 = .ok (.drw 0x1 0x2 0x5) := by decide
theorem test_decode_skp : decode 0b1110010110011110 = .ok (.skp 0x5) := by decide
theorem test_decode_sknp : decode 0b1110010110100001 = .ok (.sknp 0x5) := by decide
theorem test_decode_ldVxDt : decode 0b1111001100000111 = .ok (.ldVxDt 0x3) := by decide
theorem test_decode_ldVxK : decode 0b1111001100001010 = .ok (.ldVxK 0x3) := by decide
theorem test_decode_ldDtVx : decode 0b1111001100010101 = .ok (.ldDtVx 0x3) := by decide
theorem test_decode_ldStVx : decode 0b1111001100011000 = .ok (.ldStVx 0x3) := by decide
theorem test_decode_addIVx : decode 0b1111001000011110 = .ok (.addIVx 0x2) := by decide
theorem test_decode_ldFVx : decode 0b1111000000101001 = .ok (.ldFVx 0x0) := by decide
theorem test_decode_ldBVx : decode 0b1111001000110011 = .ok (.ldBVx 0x2) := by decide
theorem test_decode_ldMemVx : decode 0b1111000101010101 = .ok (.ldMemVx 0x1) := by decide
theorem test_decode_ldVxMem : decode 0b1111001001100101 = .ok (.ldVxMem 0x2) := by decide

/-- V7 to V11: rejected by name. -/
theorem test_decode_illegal :
    decode 0x5121 = .error (.illegalOpcode 0x5121) ∧ decode 0x8128 = .error (.illegalOpcode 0x8128) ∧
    decode 0x9121 = .error (.illegalOpcode 0x9121) ∧ decode 0xE19F = .error (.illegalOpcode 0xE19F) ∧
    decode 0xF030 = .error (.illegalOpcode 0xF030) := by decide

/-- V3 to V6: 00E0 and 00EE are no SYS, every other word of the 0 group is one. -/
theorem test_decode_zero_group :
    decode 0x0000 = .ok (.sys 0) ∧ decode 0x00E1 = .ok (.sys 0x0E1) ∧ decode 0x0E00 = .ok (.sys 0xE00) := by decide

theorem test_decode_bytes_truncated : decodeBytes [0x12] = .error .truncated := by decide

/-- V1: high byte first, two bytes consumed. -/
theorem test_decode_bytes : decodeBytes [0x12, 0x34, 0x99] = .ok (.jp 0x234, [0x99]) := by decide

theorem test_decode_table_word : decodeTableWord 16 0xD125 = some (.drw 1 2 5) := by decide

/-- The decoded instruction is encoded again as the two bytes of its word. -/
theorem test_encode_bytes : encodeBytes (.drw 1 2 5) = [0xD1, 0x25] := by decide

/-! ### WellFormed smoke: an ill-formed term for each check -/

theorem test_wellFormed_refuses_sys_cls : (Instr.sys 0x0E0).wellFormed = false := by decide
theorem test_wellFormed_refuses_sys_ret : (Instr.sys 0x0EE).wellFormed = false := by decide
theorem test_wellFormed_accepts_sys : (Instr.sys 0x0EF).wellFormed = true := by decide

/-! ### Single steps -/

/-- What `f` sees after one step of `s` with the word `w` placed at its pc. -/
def after {α : Type} (s : State) (w : Nat) (f : State → α) : Option α :=
  match step (s.withFetchWord 16 w) with
  | .next t => some (f t)
  | _ => none

/-- Reset with V1 = a, V2 = b, VF = c. -/
def withRegs (a b c : Byte) : State := ((State.reset.setReg 1 a).setReg 2 b).setReg VF c

/-- Reset with I = i. -/
def withI (i : Word) : State := State.reset.setI i

/-- The quirks the other way round. -/
def otherQuirks : Config :=
  { defaultConfig with shiftSource := .vy, logicResetsVF := true, loadStoreIncrementsI := true }

def stackOf (depth : Fin 17) (entry : Word) : State := State.reset.setStack depth (Vector.replicate 16 entry)

def seesV (t : State) : Byte × Byte × Word := (t.reg 1, t.reg VF, t.pc)
def seesHalt (t : State) : RunState × Option Error × Word × Bool := (t.run, t.err, t.pc, t.dirty)

/-- V34. -/
theorem test_sys : after State.reset 0x0123 (fun t => t.pc) = some 0x202 := by decide
/-- S1. -/
theorem test_ret : after (stackOf 1 0x206) 0x00EE (fun t => (t.pc, t.sp)) = some (0x206, 0) := by decide
/-- V24. -/
theorem test_ret_underflow :
    after State.reset 0x00EE seesHalt = some (.halted, some .stackUnderflow, 0x200, false) := by decide
/-- S1. -/
theorem test_jp : after State.reset 0x1234 (fun t => t.pc) = some 0x234 := by decide
/-- V22. -/
theorem test_call :
    after State.reset 0x2300 (fun t => (t.stack[0], t.sp, t.pc)) = some (0x202, 1, 0x300) := by decide
/-- V23. -/
theorem test_call_overflow :
    after (stackOf 16 0x206) 0x2400 seesHalt = some (.halted, some .stackOverflow, 0x200, false) := by decide
/-- V27. -/
theorem test_jpV0 : after (State.reset.setReg 0 0xFF) 0xBFFF (fun t => t.pc) = some 0x10FE := by decide
/-- V29. -/
theorem test_seImm : after (State.reset.setReg 3 0x10) 0x3310 (fun t => t.pc) = some 0x204 := by decide
/-- V30. -/
theorem test_sneImm : after (State.reset.setReg 3 0x10) 0x4310 (fun t => t.pc) = some 0x202 := by decide
/-- V31. -/
theorem test_seReg : after (withRegs 7 0 0) 0x5110 (fun t => t.pc) = some 0x204 := by decide
/-- V32. -/
theorem test_sneReg : after (withRegs 7 0 0) 0x9110 (fun t => t.pc) = some 0x202 := by decide
/-- V40. -/
theorem test_ldImm : after State.reset 0x6A42 (fun t => (t.reg 0xA, t.pc)) = some (0x42, 0x202) := by decide
/-- S2. -/
theorem test_addImm_wraps : after (withRegs 0xFF 0 0x5A) 0x7102 seesV = some (0x01, 0x5A, 0x202) := by decide
/-- V43. -/
theorem test_addImm_vf : after (withRegs 0 0 0x01) 0x7F02 (fun t => t.reg VF) = some 0x03 := by decide
/-- 95_test_vectors.md section 2.3, row 8120. -/
theorem test_ldReg : after (withRegs 0x12 0x34 7) 0x8120 seesV = some (0x34, 7, 0x202) := by decide
/-- Section 2.3, row 8121. -/
theorem test_or : after (withRegs 0xF0 0x0F 7) 0x8121 seesV = some (0xFF, 7, 0x202) := by decide
/-- Section 2.3, row 8121 with LOGIC_RESETS_VF. -/
theorem test_or_resets_vf :
    after { withRegs 0xF0 0x0F 7 with cfg := otherQuirks } 0x8121 seesV = some (0xFF, 0, 0x202) := by decide
/-- Section 2.3, row 8122. -/
theorem test_and : after (withRegs 0xF0 0x3C 7) 0x8122 seesV = some (0x30, 7, 0x202) := by decide
/-- Section 2.3, row 8123. -/
theorem test_xor : after (withRegs 0xFF 0x0F 7) 0x8123 seesV = some (0xF0, 7, 0x202) := by decide
/-- S3. -/
theorem test_addReg_carry : after (withRegs 0xFF 0x01 0) 0x8124 seesV = some (0x00, 1, 0x202) := by decide
/-- Section 2.3, row 8F24: x = F. -/
theorem test_addReg_vf : after (withRegs 0 0x01 0xFF) 0x8F24 (fun t => t.reg VF) = some 1 := by decide
/-- S4. -/
theorem test_sub_borrow : after (withRegs 0x05 0x0A 1) 0x8125 seesV = some (0xFB, 0, 0x202) := by decide
/-- Section 2.3, row 8125, equal. -/
theorem test_sub_equal : after (withRegs 0x05 0x05 0) 0x8125 seesV = some (0x00, 1, 0x202) := by decide
/-- Section 2.3, row 8126. -/
theorem test_shr : after (withRegs 0x05 0xAA 0) 0x8126 seesV = some (0x02, 1, 0x202) := by decide
/-- Section 2.3, row 8126 with SHIFT_SOURCE = VY. -/
theorem test_shr_vy :
    after { withRegs 0x05 0xAA 0 with cfg := otherQuirks } 0x8126 seesV = some (0x55, 0, 0x202) := by decide
/-- Section 2.3, row 8127. -/
theorem test_subn : after (withRegs 0x0A 0x05 1) 0x8127 seesV = some (0xFB, 0, 0x202) := by decide
/-- Section 2.3, row 812E. -/
theorem test_shl : after (withRegs 0x81 0x01 0) 0x812E seesV = some (0x02, 1, 0x202) := by decide
/-- Section 2.3, row 812E with SHIFT_SOURCE = VY. -/
theorem test_shl_vy :
    after { withRegs 0x81 0x01 0 with cfg := otherQuirks } 0x812E seesV = some (0x02, 0, 0x202) := by decide
/-- V46, V48: the step completes and counts one draw, whatever the byte. -/
theorem test_rnd_draws : after State.reset 0xC30F (fun t => (t.pc, t.draws)) = some (0x202, 1) := by decide
/-- V50. -/
theorem test_ldI : after State.reset 0xA300 (fun t => t.I) = some 0x300 := by decide
/-- V53. -/
theorem test_addIVx_wraps : after ((withI 0xFFFF).setReg 2 1) 0xF21E (fun t => t.I) = some 0 := by decide
/-- V52. -/
theorem test_addIVx_unmasked : after ((withI 0x0FFF).setReg 2 1) 0xF21E (fun t => t.I) = some 0x1000 := by decide
/-- V54. -/
theorem test_ldFVx_low_nibble : after (State.reset.setReg 0 0xFA) 0xF029 (fun t => t.I) = some 0x082 := by decide
/-- V56. -/
theorem test_ldBVx :
    after ((withI 0xFFD).setReg 2 0xFF) 0xF233 (fun t => (t.readByte 0xFFD, t.readByte 0xFFE, t.readByte 0xFFF)) =
      some (2, 5, 5) := by decide
/-- V57. -/
theorem test_ldBVx_outOfBounds :
    after (withI 0xFFE) 0xF233 seesHalt = some (.halted, some .outOfBounds, 0x200, false) := by decide
/-- V58. -/
theorem test_ldMemVx :
    after (((withI 0x300).setReg 0 0x11).setReg 1 0x22) 0xF155
      (fun t => (t.readByte 0x300, t.readByte 0x301, t.readByte 0x302, t.I)) = some (0x11, 0x22, 0, 0x300) := by decide
/-- V59: LOADSTORE_INCREMENTS_I. -/
theorem test_ldMemVx_increments :
    after { withI 0x300 with cfg := otherQuirks } 0xF155 (fun t => t.I) = some 0x302 := by decide
/-- V62, V116: the first two bytes of the font's glyph 0. -/
theorem test_ldVxMem :
    after (withI 0x050) 0xF165 (fun t => (t.reg 0, t.reg 1, t.reg 2)) = some (0xF0, 0x90, 0) := by decide
/-- V64. -/
theorem test_ldVxMem_outOfBounds :
    after (withI 0xFFF) 0xF165 seesHalt = some (.halted, some .outOfBounds, 0x200, false) := by decide
/-- V70. -/
theorem test_cls :
    after (State.reset.setFb (Framebuffer.xorPixel blankScreen 5 3).1) 0x00E0
      (fun t => (t.fb.pixel 5 3, t.dirty)) = some (false, true) := by decide
/-- V73: wrap on both axes. -/
theorem test_drw_wraps :
    after ((withRegs 0x3E 0x1E 0).setI 0x050) 0xD125
      (fun t => ([t.fb.pixel 1 30, t.fb.pixel 62 1, t.fb.pixel 2 2, t.fb.pixel 63 2], t.reg VF, t.dirty)) =
      some ([true, true, false, true], 0, true) := by decide
/-- V78. -/
theorem test_drw_outOfBounds :
    after (withI 0xFFC) 0xD125 seesHalt = some (.halted, some .outOfBounds, 0x200, false) := by decide
/-- V90. -/
theorem test_skp :
    after ((State.reset.setReg 5 0x0A).setKeyState 0xA true) 0xE59E (fun t => t.pc) = some 0x204 := by decide
/-- V94. -/
theorem test_skp_outOfBounds :
    after (State.reset.setReg 5 0x10) 0xE59E seesHalt = some (.halted, some .outOfBounds, 0x200, false) := by decide
/-- V92. -/
theorem test_sknp : after (State.reset.setReg 5 0x0A) 0xE5A1 (fun t => t.pc) = some 0x204 := by decide
/-- V95. -/
theorem test_ldVxDt : after (State.reset.setDT 0x3C) 0xF307 (fun t => (t.reg 3, t.DT)) = some (0x3C, 0x3C) := by decide
/-- V96. -/
theorem test_ldDtVx : after (State.reset.setReg 3 0x05) 0xF315 (fun t => t.DT) = some 0x05 := by decide
/-- V97. -/
theorem test_ldStVx :
    after (State.reset.setReg 3 0x02) 0xF318 (fun t => (t.ST, t.soundActive)) = some (0x02, true) := by decide
/-- V100. -/
theorem test_ldVxK : after State.reset 0xF30A (fun t => (t.await, t.pc)) = some (some 3, 0x200) := by decide

/-! ### Fetch and the host's transactions -/

/-- V15: an odd pc. -/
theorem test_fetch_odd : after (State.reset.setPc 0x201) 0x6107 (fun t => (t.reg 1, t.pc)) = some (7, 0x203) := by decide
/-- P7, tick 2. -/
theorem test_illegal_word :
    after State.reset 0x5121 seesHalt = some (.halted, some .illegalOpcode, 0x200, false) := by decide
/-- V14. -/
theorem test_fetch_outOfBounds :
    (tick (State.reset.setPc 0x0FFF)).2 = some .outOfBounds ∧ (tick (State.reset.setPc 0x0FFF)).1.pc = 0x0FFF := by decide
/-- V102. -/
theorem test_setKey_completes :
    seesV (setKey 7 true (State.reset.setAwait (some 1))) = (7, 0, 0x202) ∧
    (setKey 7 true (State.reset.setAwait (some 1))).await = none := by decide
/-- V103: a key already held is no fresh press. -/
theorem test_setKey_held :
    (setKey 7 true ((State.reset.setAwait (some 1)).setKeyState 7 true)).await = some 1 := by decide
/-- V99. -/
theorem test_tickTimers :
    (tickTimers ((State.reset.setDT 1).setST 0)).DT = 0 ∧ (tickTimers ((State.reset.setDT 1).setST 0)).ST = 0 := by decide
/-- V112. -/
theorem test_loadRom :
    (loadRom [0xB1] (State.reset.storeBytes 0x200 [0xA1, 0xA2])).1.mem = [(0x200, 0xB1), (0x201, 0xA2)] := by decide
/-- V114. -/
theorem test_halted_tick :
    (tick ((State.reset.halt .outOfBounds).setDT 5)).2 = some .outOfBounds ∧
    (tickTimers ((State.reset.halt .outOfBounds).setDT 5)).DT = 5 := by decide
/-- V115, V116. -/
theorem test_reset :
    (hostReset (State.reset.halt .outOfBounds)).run = .running ∧
    (hostReset State.reset).readByte 0x09B = 0xF0 ∧ (hostReset State.reset).readByte 0x09F = 0x80 ∧
    (hostReset State.reset).readByte 0x200 = 0 := by decide
/-- V66: the font is writable. -/
theorem test_font_writable :
    after ((withI 0x050).setReg 0 0xAA) 0xF055 (fun t => (t.readByte 0x050, t.readByte 0x051)) = some (0xAA, 0x90) := by
  decide

/-! ### Witnesses: for each statement of Certificates/Slice0/Obligations.lean that has hypotheses, values that meet them -/

/-- The word that a running machine fetches at pc. -/
def wordAtPc (s : State) : Word := wordOfBytes (s.readByte s.pc.toNat) (s.readByte (s.pc.toNat + 1))

/-- Reset with pc at the highest address two bytes can be fetched from, and the word `w` there. -/
def atTop (w : Nat) : State := (State.reset.setPc 0xFFE).withFetchWord 16 w

/-- DecodeReadsBackEncode: the SYS operands beside the two that are taken. -/
theorem witness_wellFormed :
    (Instr.sys 0x0E1).wellFormed = true ∧ (Instr.sys 0x0ED).wellFormed = true ∧
    (Instr.drw 0xF 0xF 0xF).wellFormed = true := by decide

/-- EncodeGivesBackDecodedWord. -/
theorem witness_decodes : decode 0x00E1 = .ok (.sys 0x0E1) ∧ decode 0xFF65 = .ok (.ldVxMem 0xF) := by decide

/-- OpcodeRowsDisjointButForSys. -/
theorem witness_rows_overlap :
    (rowOf (.sys 0) ∈ opcodeRows ∧ rowOf .cls ∈ opcodeRows ∧ (rowOf (.sys 0)).matches 0x00E0 = true ∧
      (rowOf .cls).matches 0x00E0 = true ∧ rowOf (.sys 0) ≠ rowOf .cls) ∧
    (rowOf .ret ∈ opcodeRows ∧ (rowOf (.sys 0)).matches 0x00EE = true ∧ (rowOf .ret).matches 0x00EE = true ∧
      rowOf (.sys 0) ≠ rowOf .ret) := by decide

/-- StepRunsDecodedInstruction, DirtyExactlyAfterADraw. -/
theorem witness_fetches :
    (atTop 0x00E0).run = .running ∧ (atTop 0x00E0).await = none ∧ (atTop 0x00E0).pc.toNat = 0xFFE ∧
    decode (wordAtPc (atTop 0x00E0)) = .ok .cls ∧ ∃ t, step (atTop 0x00E0) = .next t :=
  ⟨by decide, by decide, by decide, by decide, _, rfl⟩

/-- FetchReadsTwoBytesOrFaults, StepRunsDecodedInstruction: the last pc that fetches, and the first that does not. -/
theorem witness_fetch_bounds :
    (atTop 0x6107).run = .running ∧ (atTop 0x6107).await = none ∧ (atTop 0x6107).pc.toNat ≤ 0xFFE ∧
    (State.reset.setPc 0xFFF).run = .running ∧ (State.reset.setPc 0xFFF).await = none ∧
    0xFFF ≤ (State.reset.setPc 0xFFF).pc.toNat ∧ (State.reset.setPc 0xFFF).err = none := by decide

/-- IllegalWordHaltsUnexecuted, StepRunsDecodedInstruction. -/
theorem witness_illegal_word :
    (atTop 0x8128).run = .running ∧ (atTop 0x8128).await = none ∧ (atTop 0x8128).pc.toNat ≤ 0xFFE ∧
    ∀ r ∈ opcodeRows, r.matches (wordAtPc (atTop 0x8128)) = false := by decide

/-- DirtyExactlyAfterADraw: a draw that completes, and each kind of tick after which dirty is false although it was true
before: a faulting draw, a fetch fault, an illegal word, a tick that awaits a key. -/
theorem witness_dirty :
    after State.reset 0xD121 (fun t => (t.run, t.dirty)) = some (.running, true) ∧
    after ((withI 0xFFC).setDirty true) 0xD125 (fun t => (t.run, t.dirty)) = some (.halted, false) ∧
    after (State.reset.setDirty true) 0x8128 (fun t => (t.run, t.dirty)) = some (.halted, false) ∧
    (tick ((State.reset.setPc 0xFFF).setDirty true)).1.dirty = false ∧
    (tick ((State.reset.setAwait (some 3)).setDirty true)).1.dirty = false := by decide

/-- AwaitingTickOnlyClearsDirty, FreshPressCompletesTheWait, and the last clause of EveryInstructionUpdatesPcAsListed. -/
theorem witness_awaiting :
    (State.reset.setAwait (some 0xF)).run = .running ∧ (State.reset.setAwait (some 0xF)).await ≠ none ∧
    (State.reset.setAwait (some 0xF)).await = some 0xF ∧ (State.reset.setAwait (some 0xF)).keyDown 0xF = false := by
  decide

/-- FreshPressCompletesTheWait, its last clause: each of the four ways a `setKey` changes the key alone. -/
theorem witness_setKey_key_alone :
    (State.reset.halt .outOfBounds).run = .halted ∧ State.reset.await = none ∧
    (State.reset.setKeyState 0xF true).keyDown 0xF = true ∧ ∃ p : Bool, p = false := by decide

/-- HaltedMachineIsFrozen, StepFaultsOnlyInHalted. -/
theorem witness_halted :
    (State.reset.halt .stackOverflow).run = .halted ∧ (State.reset.halt .stackOverflow).err ≠ none := by decide

/-- ExecuteFaultsAreTheTableAndPrecise, EveryInstructionUpdatesPcAsListed: each side of each check, at its boundary. -/
theorem witness_executeFault :
    executeFault (.call 0x300) (stackOf 16 0x206) = some .stackOverflow ∧
    executeFault (.call 0x300) (stackOf 15 0x206) = none ∧
    executeFault .ret State.reset = some .stackUnderflow ∧ executeFault .ret (stackOf 1 0x206) = none ∧
    executeFault (.ldBVx 2) (withI 0xFFE) = some .outOfBounds ∧ executeFault (.ldBVx 2) (withI 0xFFD) = none ∧
    executeFault (.ldMemVx 0xF) (withI 0xFF1) = some .outOfBounds ∧
    executeFault (.ldVxMem 0xF) (withI 0xFF0) = none ∧
    executeFault (.drw 1 2 5) (withI 0xFFC) = some .outOfBounds ∧ executeFault (.drw 1 2 5) (withI 0xFFB) = none ∧
    executeFault (.drw 1 2 0) (withI 0xFFFF) = none ∧
    executeFault (.skp 1) (withRegs 0x10 0 0) = some .outOfBounds ∧ executeFault (.sknp 1) (withRegs 0x0F 0 0) = none := by
  decide

/-- RetPopsReturnAddress, at both ends of the stack. -/
theorem witness_ret_depth :
    (stackOf 1 0x206).sp.val = (0 : Fin 16).val + 1 ∧ (stackOf 16 0x206).sp.val = (15 : Fin 16).val + 1 := by decide

/-- FullCallAndEmptyRetFault, CallPushesNextAddress. -/
theorem witness_call_depth :
    (stackOf 16 0x206).sp.val = 16 ∧ State.reset.sp.val = 0 ∧ State.reset.sp.val = (0 : Fin 16).val ∧
    (stackOf 15 0x206).sp.val = (15 : Fin 16).val := by decide

/-- SkipsOnTwoRegisters, its illegal words. -/
theorem witness_nonzero_n : (0x1 : Nibble) ≠ 0 ∧ (0xF : Nibble) ≠ 0 := by decide

/-- 2210 at 0x200 and 00EE at 0x210, or 2FFE at 0xFFC and 00EE at 0xFFE, at depth `d`. -/
def callThenRet (at1 target : Word) (d : Fin 17) : State :=
  (((State.reset.setPc at1).setStack d State.reset.stack).storeBytes at1.toNat (encodeBytes (.call (target.setWidth 12)))).storeBytes
    target.toNat (encodeBytes .ret)

/-- CallThenRetComesBack. -/
theorem witness_call_then_ret :
    let s := callThenRet 0x200 0x210 0
    s.run = .running ∧ s.await = none ∧ s.pc.toNat ≤ 0xFFE ∧ s.sp.val < 16 ∧
    decode (wordAtPc s) = .ok (.call 0x210) ∧ s.readByte 0x210 = 0x00 ∧ s.readByte 0x211 = 0xEE := by decide

/-- CallThenRetComesBack, at the top of memory and of the stack. -/
theorem witness_call_then_ret_top :
    let s := callThenRet 0xFFC 0xFFE 15
    s.run = .running ∧ s.await = none ∧ s.pc.toNat ≤ 0xFFE ∧ (0xFFE : Addr12).toNat ≤ 0xFFE ∧ s.sp.val < 16 ∧
    decode (wordAtPc s) = .ok (.call 0xFFE) ∧ s.readByte 0xFFE = 0x00 ∧ s.readByte 0xFFF = 0xEE := by decide

/-- LogicOperationsBitwise: each disjunct, both values of the parameter, x = F and x ≠ F. -/
theorem witness_logic :
    ((Instr.or 0xF 2 = .or 0xF 2 ∧ Bool.or = Bool.or) ∧ (Instr.and 1 2 = .and 1 2 ∧ Bool.and = Bool.and) ∧
      (Instr.xor 1 2 = .xor 1 2 ∧ Bool.xor = Bool.xor)) ∧
    State.reset.cfg.logicResetsVF = false ∧
    (({ State.reset with cfg := otherQuirks } : State).cfg.logicResetsVF = true ∧ (0xE : Nibble) ≠ VF) := by decide

/-- AddRegistersSetsCarry, SubtractionsSetNotBorrow, ShiftsSetTheBitShiftedOut: the destination that is not VF. -/
theorem witness_not_vf : (0x0 : Nibble) ≠ VF ∧ (0xE : Nibble) ≠ VF := by decide

/-- ShiftsSetTheBitShiftedOut: each value of SHIFT_SOURCE. -/
theorem witness_shift_source :
    (State.reset.cfg.shiftSource = .vx ∧ (0 : Byte) = State.reset.reg 1) ∧
    (({ withRegs 1 0xFF 0 with cfg := otherQuirks } : State).cfg.shiftSource = .vy ∧
      (0xFF : Byte) = ({ withRegs 1 0xFF 0 with cfg := otherQuirks } : State).reg 2) := by decide

/-- StoreDecimalDigits, LoadRegistersThroughX, StoreRegistersThroughX: the highest I that is in bounds. -/
theorem witness_memory_operand_in_bounds :
    MemCanonical (withI 0xFFD) ∧ (withI 0xFFD).I.toNat + 2 ≤ 0xFFF ∧
    MemCanonical (withI 0xFF0) ∧ (withI 0xFF0).I.toNat + (0xF : Nibble).toNat ≤ 0xFFF := ⟨rfl, by decide, rfl, by decide⟩

/-- StoreDecimalDigits, OutOfRangeOperandsFault: the lowest I that is out of bounds, and the lowest key that is none. -/
theorem witness_operand_out_of_range :
    (withI 0xFFE).I.toNat + 2 > 0xFFF ∧ (withI 0xFFE).err = none ∧
    (withI 0xFF1).I.toNat + (0xF : Nibble).toNat > 0xFFF ∧
    (1 ≤ (5 : Nibble).toNat ∧ (withI 0xFFC).I.toNat + (5 : Nibble).toNat - 1 > 0xFFF) ∧
    ((withRegs 0x10 0 0).reg 1).toNat > 0x0F := by decide

/-- StoreThenLoadRestoresRegisters: between the two, every stored register is overwritten. -/
theorem witness_store_then_load :
    ∃ s t u : State, MemCanonical s ∧ s.cfg.loadStoreIncrementsI = false ∧ s.I.toNat + (0xF : Nibble).toNat ≤ 0xFFF ∧
      exec (.ldMemVx 0xF) s = .next t ∧ u.I = t.I ∧ u.V ≠ t.V ∧
      ∀ a, s.I.toNat ≤ a → a ≤ s.I.toNat + (0xF : Nibble).toNat → u.readByte a = t.readByte a :=
  ⟨(withRegs 1 2 3).setI 0xFF0,
   (((withRegs 1 2 3).setI 0xFF0).storeBytes 0xFF0 (((withRegs 1 2 3).setI 0xFF0).regsThrough 0xF)).advance instrLen,
   { (((withRegs 1 2 3).setI 0xFF0).storeBytes 0xFF0 (((withRegs 1 2 3).setI 0xFF0).regsThrough 0xF)).advance instrLen with
     V := Vector.replicate 16 0x99 },
   rfl, rfl, by decide, rfl, rfl, by decide, fun _ _ _ => rfl⟩

/-- A sprite of one byte 0x80 at I = 0x300, drawn at V1, V2; the pixel under it is set when `set`. -/
def onePixel (set : Bool) : State :=
  let s := ((withRegs 63 31 7).setI 0x300).storeBytes 0x300 [0x80]
  if set then s.setFb (Framebuffer.xorPixel blankScreen 63 31).1 else s

/-- DrwFlipsCoveredPixels: the bounds, at n = 0 and at the last byte of memory. -/
theorem witness_drw_bounds :
    ((0 : Nibble).toNat = 0 ∨ (withI 0xFFFF).I.toNat + (0 : Nibble).toNat - 1 ≤ 0xFFF) ∧
    ((5 : Nibble).toNat = 0 ∨ (withI 0xFFB).I.toNat + (5 : Nibble).toNat - 1 ≤ 0xFFF) := by decide

/-- DrwFlipsCoveredPixels: a covered pixel that is set, and one that is not covered. -/
theorem witness_drw_collision :
    (SpriteCovers (onePixel true) 63 31 1 63 31 ∧ (onePixel true).fb.pixel 63 31 = true) ∧
    ¬SpriteCovers (onePixel true) 63 31 1 63 30 := by
  refine ⟨⟨⟨0, 0, by decide, by decide, by decide, by decide, by decide⟩, by decide⟩, ?_⟩
  rintro ⟨r, c, hr, hc, -, hy, -⟩
  have hv : (30 : Fin 32).val = 30 ∧ (31 : Byte).toNat = 31 := by decide
  omega

/-- DrwFlipsCoveredPixels: no covered pixel is set. -/
theorem witness_drw_no_collision :
    ¬∃ px py, SpriteCovers (onePixel false) 63 31 1 px py ∧ (onePixel false).fb.pixel px py = true := by
  rintro ⟨px, py, -, h⟩
  exact absurd (h.symm.trans (blankScreen_pixel px py)) (by decide)

/-- DrawingTwiceRestoresTheScreen, with a covered pixel that was clear; the second draw names the coordinates by other
registers. -/
theorem witness_drawing_twice :
    ∃ s t u : State, s.I.toNat + (1 : Nibble).toNat - 1 ≤ 0xFFF ∧ exec (.drw 1 2 1) s = .next t ∧ u.I = s.I ∧
      u.reg 3 = s.reg 1 ∧ u.reg 4 = s.reg 2 ∧
      (∀ r, r < (1 : Nibble).toNat → u.readByte (s.I.toNat + r) = s.readByte (s.I.toNat + r)) ∧
      (∀ px py, u.fb.pixel px py = t.fb.pixel px py) ∧
      ∃ px py, SpriteCovers s (s.reg 1) (s.reg 2) (1 : Nibble).toNat px py ∧ s.fb.pixel px py = false := by
  let s := onePixel false
  let u := (s.setReg 3 63).setReg 4 31
  obtain ⟨t, ht⟩ : ∃ t, exec (.drw 1 2 1) s = .next t := ⟨_, rfl⟩
  have h3 : u.reg 3 = s.reg 1 := by decide
  have h4 : u.reg 4 = s.reg 2 := by decide
  exact ⟨s, t, u.setFb t.fb, by decide, ht, rfl, h3, h4, fun _ _ => rfl, fun _ _ => rfl, 63, 31, ⟨0, 0, by decide, by decide, by decide, by decide, by decide⟩, by decide⟩

/-- SecondOfTwoDrawsAlwaysCollides: its hypotheses are met, and VF is 0 after the second draw. -/
theorem witness_second_draw :
    ∃ t u v : State, (onePixel true).I.toNat + (1 : Nibble).toNat - 1 ≤ 0xFFF ∧
      exec (.drw 1 2 1) (onePixel true) = .next t ∧ u = t ∧ exec (.drw 1 2 1) u = .next v ∧
      (∃ r c, r < (1 : Nibble).toNat ∧ c < 8 ∧
        ((onePixel true).readByte ((onePixel true).I.toNat + r)).getLsbD c = true) ∧ t.reg VF = 1 ∧ v.reg VF = 0 :=
  ⟨_, _, _, by decide, rfl, rfl, rfl, ⟨0, 7, by decide, by decide, by decide⟩, by decide, by decide⟩

/-- KeySkipsReadTheNamedKey: the highest key. -/
theorem witness_named_key : ((withRegs 0x0F 0 0).reg 1).toNat = (0xF : Nibble).toNat := by decide

/-- TimersCountDownToZero. -/
theorem witness_running : (State.reset.setDT 5).run = .running := rfl

/-- ResetEntersAt0x200: both ways to be right after reset. -/
theorem witness_after_reset :
    (∃ s, s = State.reset) ∧ ∃ s r, s = hostReset r ∧ r.run = .halted ∧ r.await ≠ none :=
  ⟨⟨_, rfl⟩, _, (State.reset.halt .illegalOpcode).setAwait (some 3), rfl, rfl, by decide⟩

/-- LoadRomPlacesBytesOrFaults, FailedLoadWritesNothing: the longest ROM that fits, the shortest that does not, and the transaction that returns
a fault. -/
theorem witness_rom_lengths :
    (MemCanonical State.reset ∧ (List.replicate 3584 (0x12 : Byte)).length ≤ 3584) ∧
    (List.replicate 3585 (0x12 : Byte)).length > 3584 ∧
    (Transaction.loadRom (List.replicate 3585 0x12) ≠ .tick ∧
      (transact (.loadRom (List.replicate 3585 0x12)) State.reset).2 ≠ none) := by
  refine ⟨⟨rfl, ?_⟩, ?_, ?_, ?_⟩
  · rw [List.length_replicate]
  · rw [List.length_replicate]; omega
  · intro h; injection h
  · simp only [transact, loadRom]
    rw [if_pos (by rw [List.length_replicate, romMax]; omega)]
    simp

/-- StepKeepsInvariant, TransactionsKeepInvariant, TickReturnsTheFaultItRaised: a state off reset, with a listed byte, a
return address and a pending key wait. -/
theorem witness_invariant :
    let s := ((stackOf 1 0x206).storeBytes 0xFFE [0xF3, 0x0A]).setPc 0xFFE
    Inv s ∧ Inv (s.setAwait (some 3)) ∧ s.mem ≠ [] ∧ ∃ t, step s = .next t := by
  refine ⟨⟨?_, rfl, by decide, by decide, by decide⟩, ⟨?_, rfl, by decide, by decide, by decide⟩, by decide, _, rfl⟩ <;>
    unfold ErrIffHalted <;> decide

/-- OnlyCallAndRetTouchTheStack, OnlyClsAndDrwWriteTheScreen, EachStateHasItsOwnWriters: an instruction that is none of
those named, and its next state. -/
theorem witness_other_instruction :
    (∃ t, exec (.ldI 0x300) State.reset = .next t) ∧ Instr.ldI 0x300 ≠ .ret ∧ (∀ nnn, Instr.ldI 0x300 ≠ .call nnn) ∧
    Instr.ldI 0x300 ≠ .cls ∧ (∀ x y n, Instr.ldI 0x300 ≠ .drw x y n) ∧
    (∀ x, Instr.ldI 0x300 ≠ .ldDtVx x) ∧ (∀ x, Instr.ldI 0x300 ≠ .ldStVx x) ∧
    (∀ x kk, Instr.ldI 0x300 ≠ .rnd x kk) ∧ (∀ x, Instr.ldI 0x300 ≠ .ldVxK x) ∧
    (∀ x, Instr.ldI 0x300 ≠ .ldBVx x) ∧ (∀ x, Instr.ldI 0x300 ≠ .ldMemVx x) ∧
    Transaction.setKey 0xF true ≠ .tick ∧ Transaction.setKey 0xF true ≠ .reset :=
  ⟨⟨_, rfl⟩, nofun, nofun, nofun, nofun, nofun, nofun, nofun, nofun, nofun, nofun, nofun, nofun⟩

end Sys2Proof.Tests
end

section
/-! SUPPORT. The fetch of 10_state.md R52: the value of the fetched word, raising a fault, and the step that cannot
fetch. -/

namespace Sys2Proof.Proofs

open Sys2Proof Sys2Proof.Machine

/-- The big-endian word as a number (20_memory.md R63). -/
theorem wordOfBytes_toNat (hi lo : Byte) : (wordOfBytes hi lo).toNat = 256 * hi.toNat + lo.toNat := by
  rw [wordOfBytes, BitVec.toNat_append, ← Nat.shiftLeft_add_eq_or_of_lt lo.isLt, Nat.shiftLeft_eq]
  omega

theorem raises_halt (s : State) (e : Error) : Raises e s (s.halt e) :=
  ⟨State.halt_run s e, fun h => by rw [State.halt_err, h, Option.none_or]⟩

/-- `dirty` is cleared before the fault, so the fault is raised from the state the tick began in. -/
theorem raises_setDirty_halt (s : State) (d : Bool) (e : Error) : Raises e s ((s.setDirty d).halt e) :=
  raises_halt (s.setDirty d) e

theorem step_of_pc_gt {s : State} (hrun : s.run = .running) (hawait : s.await = none) (hpc : 0xFFE < s.pc.toNat) :
    step s = .next ((s.setDirty false).halt .outOfBounds) := by
  rcases step_cases s with ⟨hhalted, -⟩ | ⟨-, hawaits, -⟩ | ⟨-, -, ⟨-, hstep⟩ | ⟨hle, -⟩⟩
  · rw [hrun] at hhalted
    cases hhalted
  · exact absurd hawait hawaits
  · exact hstep
  · omega

/-- Settles O7: below the bound the two bytes read are the word, above it the step is the fault raised. -/
theorem fetchReadsTwoBytesOrFaults : Obligations.FetchReadsTwoBytesOrFaults := by
  intro s hrun hawait
  constructor
  · intro hpc
    exact ⟨_, State.fetch_of_le s hpc, wordOfBytes_toNat _ _⟩
  · intro hpc
    exact ⟨State.fetch_of_gt s hpc, _, step_of_pc_gt hrun hawait hpc, raises_setDirty_halt s false _,
      by rw [State.halt_pc, State.setDirty_pc]⟩

end Sys2Proof.Proofs
end

section
/-! SUPPORT. Frames over Part: what a write of pc or of the stack, a skip and a raised fault leave unchanged, and the frame
of one change after another. -/

namespace Sys2Proof.Proofs

open Sys2Proof Sys2Proof.Machine

theorem part_same_trans {p : Part} {s t u : State} (hst : p.same s t) (htu : p.same t u) : p.same s u := by
  cases p
  case stack =>
    obtain ⟨hspst, hst⟩ := hst
    obtain ⟨hsptu, htu⟩ := htu
    exact ⟨hsptu.trans hspst, fun j => (htu j).trans (hst j)⟩
  case V | key => exact fun q => (htu q).trans (hst q)
  case mem => exact fun a => (htu a).trans (hst a)
  case fb => exact fun px py => (htu px py).trans (hst px py)
  all_goals exact Eq.trans htu hst

theorem onlyChanges_trans {ps qs : List Part} {s t u : State} (hst : OnlyChanges ps s t) (htu : OnlyChanges qs t u) :
    OnlyChanges (qs ++ ps) s u := by
  intro p hp
  rw [List.mem_append, not_or] at hp
  exact part_same_trans (hst p hp.2) (htu p hp.1)

theorem onlyChanges_setPc (s : State) (v : Word) : OnlyChanges [.pc] s (s.setPc v) := by
  intro p hp
  cases p <;> simp_all [Part.same]

theorem onlyChanges_skipIf (s : State) (c : Bool) : OnlyChanges [.pc] s (s.skipIf c) :=
  onlyChanges_setPc s _

theorem onlyChanges_setStack (s : State) (depth : Fin 17) (entries : Vector Word 16) :
    OnlyChanges [.stack] s (s.setStack depth entries) := by
  intro p hp
  cases p <;> simp_all [Part.same]

theorem onlyChanges_halt (s : State) (e : Error) : OnlyChanges [.run, .err] s (s.halt e) := by
  obtain ⟨-, -, hframe⟩ := State.halt_entersHalted s e
  exact hframe

end Sys2Proof.Proofs
end

section
/-! SUPPORT. Control flow (40_control_flow.md): the words of JP, CALL and the skips, the jump target and the pc of a skip as
numbers, and CALL on each side of the depth check. -/

namespace Sys2Proof.Proofs

open Sys2Proof Sys2Proof.Machine Sys2Proof.Laws

/-! ### The words (30_encoding.md R84) -/

theorem decode_jp (nnn : Addr12) : decode (formatNNN 0x1 nnn) = .ok (.jp nnn) := by
  simp [decode]

theorem decode_call (nnn : Addr12) : decode (formatNNN 0x2 nnn) = .ok (.call nnn) := by
  simp [decode]

theorem decode_seImm (x : Nibble) (kk : Byte) : decode (formatXKK 0x3 x kk) = .ok (.seImm x kk) := by
  simp [decode]

theorem decode_sneImm (x : Nibble) (kk : Byte) : decode (formatXKK 0x4 x kk) = .ok (.sneImm x kk) := by
  simp [decode]

/-- The 5 group has one row, the one with `n = 0`. -/
theorem decode_formatXYN_five (x y n : Nibble) :
    decode (formatXYN 0x5 x y n) =
      if n = 0 then .ok (.seReg x y) else .error (.illegalOpcode (formatXYN 0x5 x y n)) := by
  simp [decode]

/-- The 9 group has one row, the one with `n = 0`. -/
theorem decode_formatXYN_nine (x y n : Nibble) :
    decode (formatXYN 0x9 x y n) =
      if n = 0 then .ok (.sneReg x y) else .error (.illegalOpcode (formatXYN 0x9 x y n)) := by
  simp [decode]

/-! ### The pc of a jump and of a skip -/

theorem addressOf_toNat (nnn : Addr12) : (addressOf nnn).toNat = nnn.toNat :=
  BitVec.toNat_setWidth_of_le (by decide)

theorem skipIf_pc_toNat (s : State) (c : Bool) :
    (s.skipIf c).pc.toNat = (s.pc.toNat + if c then 4 else 2) % 65536 := by
  rw [State.skipIf_pc, BitVec.toNat_add]
  cases c <;> rfl

theorem skipIf_beq_pc_toNat (s : State) (a b : Byte) :
    (s.skipIf (a == b)).pc.toNat = (s.pc.toNat + if a.toNat = b.toNat then 4 else 2) % 65536 := by
  simp only [skipIf_pc_toNat, beq_iff_eq, BitVec.toNat_inj]

theorem skipIf_bne_pc_toNat (s : State) (a b : Byte) :
    (s.skipIf (a != b)).pc.toNat = (s.pc.toNat + if a.toNat = b.toNat then 2 else 4) % 65536 := by
  simp only [skipIf_pc_toNat, bne_iff_ne, ne_eq, ite_not, BitVec.toNat_inj]

/-! ### CALL -/

theorem exec_call_pushes (nnn : Addr12) (s : State) (j : Fin 16) (hj : s.sp.val = j.val) :
    ∃ t, exec (.call nnn) s = .next t ∧ t.sp.val = j.val + 1 ∧
      (t.stack[j.val]).toNat = (s.pc.toNat + 2) % 65536 ∧
      (∀ q : Fin 16, q ≠ j → t.stack[q.val] = s.stack[q.val]) ∧
      t.pc.toNat = nnn.toNat ∧ OnlyChanges [.pc, .stack] s t := by
  have hdepth : s.sp.val < 16 := by omega
  refine ⟨_, execCall_of_lt s nnn hdepth, ?_, ?_, ?_, addressOf_toNat nnn,
    onlyChanges_trans (onlyChanges_setStack s _ _) (onlyChanges_setPc _ _)⟩
  · exact congrArg (· + 1) hj
  · simp [hj, instrLen]
  · intro q hq
    have hne : s.sp.val ≠ q.val := fun h => hq (Fin.ext (h.symm.trans hj))
    simp [hne]

theorem exec_call_of_full (nnn : Addr12) (s : State) (hfull : s.sp.val = 16) :
    ∃ t, exec (.call nnn) s = .next t ∧ Raises .stackOverflow s t ∧ OnlyChanges [.run, .err] s t :=
  ⟨_, execCall_of_full s nnn hfull, raises_halt s _, onlyChanges_halt s _⟩

/-- Settles O17: JP writes pc and nothing else, and the target is the operand. -/
theorem jpSetsPcExactly : Obligations.JpSetsPcExactly := by
  intro nnn s
  exact ⟨decode_jp nnn, _, rfl, addressOf_toNat nnn, onlyChanges_setPc s _⟩

/-- Settles O18: below depth 16 the push and the jump, at depth 16 the fault raised. -/
theorem callPushesNextAddress : Obligations.CallPushesNextAddress := by
  intro nnn s
  exact ⟨exec_call_pushes nnn s, exec_call_of_full nnn s, decode_call nnn⟩

/-- Settles O20: both are one skip, on the equality of Vx and kk or on its negation. -/
theorem skipsOnRegisterAndByte : Obligations.SkipsOnRegisterAndByte := by
  intro x kk s
  exact ⟨⟨_, rfl, onlyChanges_skipIf s _, skipIf_beq_pc_toNat s _ _⟩,
    ⟨_, rfl, onlyChanges_skipIf s _, skipIf_bne_pc_toNat s _ _⟩, decode_seImm x kk, decode_sneImm x kk⟩

/-- Settles O21: the skips as for O20; `n` alone decides whether the word is legal. -/
theorem skipsOnTwoRegisters : Obligations.SkipsOnTwoRegisters := by
  intro x y s
  refine ⟨⟨_, rfl, onlyChanges_skipIf s _, skipIf_beq_pc_toNat s _ _⟩,
    ⟨_, rfl, onlyChanges_skipIf s _, skipIf_bne_pc_toNat s _ _⟩, ⟨?_, ?_⟩, fun n hn => ⟨?_, ?_⟩⟩
  · rw [decode_formatXYN_five, if_pos rfl]
  · rw [decode_formatXYN_nine, if_pos rfl]
  · rw [decode_formatXYN_five, if_neg hn]
  · rw [decode_formatXYN_nine, if_neg hn]

end Sys2Proof.Proofs
end

section
/-! SUPPORT. Loads and adds into one register (41_alu.md R109 to R111): the words, what a write of Vx changes, and an
instruction that only writes Vx and moves on. -/

namespace Sys2Proof.Proofs

open Sys2Proof Sys2Proof.Machine Sys2Proof.Laws

/-! ### The words (30_encoding.md R84) -/

theorem decode_ldImm (x : Nibble) (kk : Byte) : decode (formatXKK 0x6 x kk) = .ok (.ldImm x kk) := by
  simp [decode]

theorem decode_addImm (x : Nibble) (kk : Byte) : decode (formatXKK 0x7 x kk) = .ok (.addImm x kk) := by
  simp [decode]

theorem decode_ldReg (x y : Nibble) : decode (formatXYN 0x8 x y 0x0) = .ok (.ldReg x y) := by
  simp [decode, decodeEightGroup]

/-! ### Writing one register -/

theorem onlyChanges_of_subset {ps qs : List Part} {s t : State} (hsub : ps ⊆ qs) (h : OnlyChanges ps s t) :
    OnlyChanges qs s t :=
  fun p hp => h p fun hmem => hp (hsub hmem)

theorem onlyChanges_advance (s : State) (k : Word) : OnlyChanges [.pc] s (s.advance k) :=
  onlyChanges_setPc s _

theorem onlyChanges_setReg (s : State) (x : Nibble) (v : Byte) : OnlyChanges [.V] s (s.setReg x v) := by
  intro p hp
  cases p <;> simp_all [Part.same]

theorem onlyRegs_setReg (s : State) (x : Nibble) (v : Byte) : OnlyRegs [x] s (s.setReg x v) :=
  fun _ hr => State.setReg_reg_of_ne s v (List.ne_of_not_mem_cons hr)

/-- All that an instruction does which only writes `v` to Vx and moves to the next one, for every x, F included. -/
theorem setReg_advance_effect (s : State) (x : Nibble) (v : Byte) :
    ((s.setReg x v).advance instrLen).reg x = v ∧ OnlyRegs [x] s ((s.setReg x v).advance instrLen) ∧
      ((s.setReg x v).advance instrLen).pc = s.pc + 2 ∧
      OnlyChanges [.V, .pc] s ((s.setReg x v).advance instrLen) := by
  have hframe := onlyChanges_trans (onlyChanges_setReg s x v) (onlyChanges_advance (s.setReg x v) instrLen)
  exact ⟨State.setReg_reg_self s x v, onlyRegs_setReg s x v, rfl, onlyChanges_of_subset (by simp) hframe⟩

/-- Settles O23: LD Vx, kk writes its operand to Vx and moves on. -/
theorem loadByteIntoRegister : Obligations.LoadByteIntoRegister := by
  intro x kk s
  exact ⟨decode_ldImm x kk, _, rfl, setReg_advance_effect s x kk⟩

/-- Settles O24: ADD Vx, kk writes the sum of two bytes to Vx, which wraps mod 256, and no flag after it. -/
theorem addByteWrapsWithoutFlag : Obligations.AddByteWrapsWithoutFlag := by
  intro x kk s
  obtain ⟨hsum, heffect⟩ := setReg_advance_effect s x (s.reg x + kk)
  exact ⟨decode_addImm x kk, _, rfl, by rw [hsum, BitVec.toNat_add], heffect⟩

/-- Settles O25: LD Vx, Vy writes the value of Vy to Vx and moves on. -/
theorem loadRegisterFromRegister : Obligations.LoadRegisterFromRegister := by
  intro x y s
  exact ⟨decode_ldReg x y, _, rfl, setReg_advance_effect s x (s.reg y)⟩

end Sys2Proof.Proofs
end

section
/-! SUPPORT. The index register and stores to memory (42_index_memory.md R126, R130): the words, the frames of a write of I
and of a store, and the decimal digits of a byte as numbers. -/

namespace Sys2Proof.Proofs

open Sys2Proof Sys2Proof.Machine Sys2Proof.Laws

/-! ### The words (30_encoding.md R84) -/

theorem decode_ldI (nnn : Addr12) : decode (formatNNN 0xA nnn) = .ok (.ldI nnn) := by
  simp [decode]

theorem decode_ldBVx (x : Nibble) : decode (formatXKK 0xF x 0x33) = .ok (.ldBVx x) := by
  simp [decode, decodeFGroup]

/-! ### Frames of a write of I and of a store -/

theorem onlyChanges_setI (s : State) (v : Word) : OnlyChanges [.I] s (s.setI v) := by
  intro p hp
  cases p <;> simp_all [Part.same]

theorem onlyChanges_storeBytes (s : State) (a : Nat) (vs : List Byte) : OnlyChanges [.mem] s (s.storeBytes a vs) := by
  intro p hp
  cases p <;> simp_all [Part.same]

theorem onlyBytes_storeBytes (s : State) (a : Nat) (vs : List Byte) :
    OnlyBytes a vs.length s (s.storeBytes a vs) :=
  fun _ => State.storeBytes_readByte_outside s a vs

/-! ### The decimal digits of a byte -/

@[simp] theorem decimalDigits_length (v : Byte) : (decimalDigits v).length = 3 := rfl

/-- The digits as numbers: each is below 256, so none is cut when it becomes a byte. -/
theorem decimalDigits_toNat (v : Byte) :
    (decimalDigits v)[0].toNat = v.toNat / 100 ∧ (decimalDigits v)[1].toNat = v.toNat / 10 % 10 ∧
      (decimalDigits v)[2].toNat = v.toNat % 10 := by
  have hv : v.toNat < 256 := v.isLt
  exact ⟨Nat.mod_eq_of_lt (by omega), Nat.mod_eq_of_lt (by omega), Nat.mod_eq_of_lt (by omega)⟩

/-- What is read back where the digits were stored. -/
theorem storeBytes_decimalDigits_reads {s : State} {a : Nat} (v : Byte) (hm : MemCanonical s) (ha : a + 2 ≤ 0xFFF) :
    ((s.storeBytes a (decimalDigits v)).readByte a).toNat = v.toNat / 100 ∧
      ((s.storeBytes a (decimalDigits v)).readByte (a + 1)).toNat = v.toNat / 10 % 10 ∧
      ((s.storeBytes a (decimalDigits v)).readByte (a + 2)).toNat = v.toNat % 10 := by
  have hfits : a + (decimalDigits v).length ≤ memSize := Nat.succ_le_succ ha
  have hread {k : Nat} (hk : k < (decimalDigits v).length) :
      ((s.storeBytes a (decimalDigits v)).readByte (a + k)).toNat = (decimalDigits v)[k].toNat :=
    congrArg BitVec.toNat (State.storeBytes_readByte s hm hfits hk)
  obtain ⟨hhundreds, htens, hones⟩ := decimalDigits_toNat v
  exact ⟨(hread (by simp)).trans hhundreds, (hread (by simp)).trans htens, (hread (by simp)).trans hones⟩

/-! ### LD B, Vx on each side of its bounds check -/

theorem exec_ldBVx_stores (x : Nibble) (s : State) (hm : MemCanonical s) (hI : s.I.toNat + 2 ≤ 0xFFF) :
    ∃ t, exec (.ldBVx x) s = .next t ∧
      (t.readByte s.I.toNat).toNat = (s.reg x).toNat / 100 ∧
      (t.readByte (s.I.toNat + 1)).toNat = (s.reg x).toNat / 10 % 10 ∧
      (t.readByte (s.I.toNat + 2)).toNat = (s.reg x).toNat % 10 ∧
      OnlyBytes s.I.toNat 3 s t ∧ t.pc = s.pc + 2 ∧ OnlyChanges [.mem, .pc] s t := by
  obtain ⟨hhundreds, htens, hones⟩ := storeBytes_decimalDigits_reads (s.reg x) hm hI
  have hframe := onlyChanges_trans (onlyChanges_storeBytes s s.I.toNat (decimalDigits (s.reg x)))
    (onlyChanges_advance _ instrLen)
  exact ⟨_, execLdBVx_of_le s x hI, hhundreds, htens, hones, onlyBytes_storeBytes s _ (decimalDigits (s.reg x)), rfl,
    onlyChanges_of_subset (by simp) hframe⟩

/-- Settles O31: LD I, nnn writes its zero-extended operand to I and moves on. -/
theorem loadIndexImmediate : Obligations.LoadIndexImmediate := by
  intro nnn s
  have hframe := onlyChanges_trans (onlyChanges_setI s (addressOf nnn)) (onlyChanges_advance _ instrLen)
  exact ⟨decode_ldI nnn, _, rfl, addressOf_toNat nnn, rfl, onlyChanges_of_subset (by simp) hframe⟩

/-- Settles O34: within the bound the three digits are stored, above it OutOfBounds is raised. -/
theorem storeDecimalDigits : Obligations.StoreDecimalDigits := by
  intro x s
  exact ⟨exec_ldBVx_stores x s, fun hI => ⟨_, execLdBVx_of_gt s x hI, raises_halt s _⟩, decode_ldBVx x⟩

end Sys2Proof.Proofs
end

section
/-! SUPPORT. The display (43_display.md): the word of CLS, and the frames of a write of the screen and of `dirty`. -/

namespace Sys2Proof.Proofs

open Sys2Proof Sys2Proof.Machine Sys2Proof.Laws

/-- The word that the 0 group gives to CLS before SYS (30_encoding.md R84, R87). -/
theorem decode_cls : decode 0x00E0 = .ok .cls := by decide

/-! ### Frames of a write of the screen and of `dirty` -/

theorem onlyChanges_setFb (s : State) (f : Framebuffer) : OnlyChanges [.fb] s (s.setFb f) := by
  intro p hp
  cases p <;> simp_all [Part.same]

theorem onlyChanges_setDirty (s : State) (d : Bool) : OnlyChanges [.dirty] s (s.setDirty d) := by
  intro p hp
  cases p <;> simp_all [Part.same]

/-- Settles O39: the screen written is the blank one whatever the old one was, and `dirty` is set without a look at it. -/
theorem clsClearsEveryPixel : Obligations.ClsClearsEveryPixel := by
  refine ⟨decode_cls, fun s => ?_⟩
  have hdrawn := onlyChanges_trans (onlyChanges_setFb s blankScreen) (onlyChanges_setDirty _ true)
  have hframe := onlyChanges_trans hdrawn (onlyChanges_advance _ instrLen)
  exact ⟨_, rfl, blankScreen_pixel, rfl, rfl, onlyChanges_of_subset (by simp) hframe⟩

end Sys2Proof.Proofs
end

section
/-! SUPPORT. The timers (44_keys_timers.md R144 to R146): the words, the frames of a write of each timer, and when the
sound is active after a write of ST. -/

namespace Sys2Proof.Proofs

open Sys2Proof Sys2Proof.Machine Sys2Proof.Laws

/-! ### The words (30_encoding.md R84) -/

theorem decode_ldVxDt (x : Nibble) : decode (formatXKK 0xF x 0x07) = .ok (.ldVxDt x) := by
  simp [decode, decodeFGroup]

theorem decode_ldDtVx (x : Nibble) : decode (formatXKK 0xF x 0x15) = .ok (.ldDtVx x) := by
  simp [decode, decodeFGroup]

theorem decode_ldStVx (x : Nibble) : decode (formatXKK 0xF x 0x18) = .ok (.ldStVx x) := by
  simp [decode, decodeFGroup]

/-! ### Writes of the timers -/

theorem onlyChanges_setDT (s : State) (v : Byte) : OnlyChanges [.DT] s (s.setDT v) := by
  intro p hp
  cases p <;> simp_all [Part.same]

theorem onlyChanges_setST (s : State) (v : Byte) : OnlyChanges [.ST] s (s.setST v) := by
  intro p hp
  cases p <;> simp_all [Part.same]

theorem soundActive_iff (s : State) : s.soundActive = true ↔ s.ST ≠ 0 :=
  bne_iff_ne

/-- Settles O44: LD Vx, DT writes the value of DT to Vx and moves on, so the frame of that write holds DT. -/
theorem readDelayTimer : Obligations.ReadDelayTimer := by
  intro x s
  exact ⟨decode_ldVxDt x, _, rfl, setReg_advance_effect s x s.DT⟩

/-- Settles O45: each writes the value of Vx to its timer and moves on; `soundActive` looks at nothing but the new ST. -/
theorem writeTimers : Obligations.WriteTimers := by
  intro x s
  have hframeDT := onlyChanges_trans (onlyChanges_setDT s (s.reg x)) (onlyChanges_advance _ instrLen)
  have hframeST := onlyChanges_trans (onlyChanges_setST s (s.reg x)) (onlyChanges_advance _ instrLen)
  exact ⟨⟨_, rfl, rfl, rfl, onlyChanges_of_subset (by simp) hframeDT⟩,
    ⟨_, rfl, rfl, soundActive_iff _, rfl, onlyChanges_of_subset (by simp) hframeST⟩, decode_ldDtVx x, decode_ldStVx x⟩

end Sys2Proof.Proofs
end

section
/-! SUPPORT. The opcode map of 30_encoding.md R84 against the decoder: a word that decodes matches the row of its
instruction, so a word that no row matches is rejected (R86). -/

namespace Sys2Proof.Proofs

open Sys2Proof Sys2Proof.Machine Sys2Proof.Laws

variable {w : Word} {i : Instr}

/-! ### A row as a condition on the fields its mask keeps -/

theorem matches_of_opField {op : Nibble} (hop : opField w = op) :
    OpcodeRow.matches ⟨op ++ (0#12 : Addr12), 0xF000⟩ w = true := by
  rw [OpcodeRow.matches, beq_iff_eq, ← formatNNN_fields w, formatNNN_and_mask, hop]

theorem matches_of_opField_nField {op n : Nibble} (hop : opField w = op) (hn : nField w = n) :
    OpcodeRow.matches ⟨(op ++ 0x0#4) ++ (0x0#4 ++ n), 0xF00F⟩ w = true := by
  rw [OpcodeRow.matches, beq_iff_eq, ← formatXYN_fields w, hop, hn]
  exact (formatXYN_and_mask op _ _ n 0xF).trans (by rw [show n &&& 0xF = n from nibble_and_ones n])

theorem matches_of_opField_kkField {op : Nibble} {kk : Byte} (hop : opField w = op) (hkk : kkField w = kk) :
    OpcodeRow.matches ⟨(op ++ 0x0#4) ++ kk, 0xF0FF⟩ w = true := by
  rw [OpcodeRow.matches, beq_iff_eq, ← formatXKK_fields w, hop, hkk]
  exact (formatXKK_and_mask op _ kk 0xFF).trans (by rw [show kk &&& 0xFF = kk from BitVec.and_allOnes])

/-! ### A word that decodes matches its instruction's row -/

theorem rowOf_mem_opcodeRows (i : Instr) : rowOf i ∈ opcodeRows := by
  cases i <;> simp [opcodeRows, rowOf]

theorem rowOf_decodeZeroGroup_matches (hop : opField w = 0x0) : (rowOf (decodeZeroGroup w)).matches w = true := by
  unfold decodeZeroGroup
  split
  case isTrue hcls => rw [hcls]; rfl
  case isFalse =>
    split
    case isTrue hret => rw [hret]; rfl
    case isFalse => exact matches_of_opField hop

theorem rowOf_decodeEightGroup_matches (hop : opField w = 0x8) (h : decodeEightGroup w = .ok i) :
    (rowOf i).matches w = true := by
  unfold decodeEightGroup at h
  split at h <;> cases h
  all_goals exact matches_of_opField_nField hop ‹_›

theorem rowOf_decodeEGroup_matches (hop : opField w = 0xE) (h : decodeEGroup w = .ok i) :
    (rowOf i).matches w = true := by
  unfold decodeEGroup at h
  split at h <;> cases h
  all_goals exact matches_of_opField_kkField hop ‹_›

theorem rowOf_decodeFGroup_matches (hop : opField w = 0xF) (h : decodeFGroup w = .ok i) :
    (rowOf i).matches w = true := by
  unfold decodeFGroup at h
  split at h <;> cases h
  all_goals exact matches_of_opField_kkField hop ‹_›

/-- One case per value of `opField` (`h_1` is 0x0, `h_16` is 0xF): the 0 group (30_encoding.md R87), the groups 5 and 9
with one row each, the groups 8, E and F, and one row for each of the others. -/
theorem rowOf_decode_matches (h : decode w = .ok i) : (rowOf i).matches w = true := by
  unfold decode at h
  split at h
  case h_1 hop =>
    cases h
    exact rowOf_decodeZeroGroup_matches hop
  case h_6 | h_10 =>
    split at h <;> cases h
    exact matches_of_opField_nField ‹_› ‹_›
  case h_9 hop => exact rowOf_decodeEightGroup_matches hop h
  case h_15 hop => exact rowOf_decodeEGroup_matches hop h
  case h_16 =>
    have hop : opField w = 0xF := by
      simp only [imp_false] at *
      bv_omega
    exact rowOf_decodeFGroup_matches hop h
  all_goals
    cases h
    exact matches_of_opField ‹_›

theorem decode_error_of_no_row (hnone : ∀ r ∈ opcodeRows, r.matches w = false) : ∃ e, decode w = .error e := by
  cases hdec : decode w with
  | error e => exact ⟨e, rfl⟩
  | ok i =>
    have hmatches := rowOf_decode_matches hdec
    rw [hnone _ (rowOf_mem_opcodeRows i)] at hmatches
    cases hmatches

end Sys2Proof.Proofs
end

section
/-! SUPPORT. The faults of 60_exceptions.md R152 and R153: a step on an illegal word, and RET on the empty stack. -/

namespace Sys2Proof.Proofs

open Sys2Proof Sys2Proof.Machine

theorem step_of_decode_error {s : State} {e : DecodeError} (hrun : s.run = .running) (hawait : s.await = none)
    (hpc : s.pc.toNat ≤ 0xFFE)
    (hdec : decode (wordOfBytes (s.readByte s.pc.toNat) (s.readByte (s.pc.toNat + 1))) = .error e) :
    step s = .next ((s.setDirty false).halt .illegalOpcode) := by
  rcases step_cases s with ⟨hhalted, -⟩ | ⟨-, hawaits, -⟩ | ⟨-, -, ⟨hgt, -⟩ | ⟨-, hstep⟩⟩
  · rw [hrun] at hhalted
    cases hhalted
  · exact absurd hawait hawaits
  · omega
  · rwa [hdec] at hstep

theorem onlyChanges_setDirty_halt (s : State) (d : Bool) (e : Error) :
    OnlyChanges [.run, .err, .dirty] s ((s.setDirty d).halt e) :=
  onlyChanges_trans (onlyChanges_setDirty s d) (onlyChanges_halt _ e)

/-- Settles O8: a word that no row matches does not decode, so the step is the fault raised after `dirty` is cleared. -/
theorem illegalWordHaltsUnexecuted : Obligations.IllegalWordHaltsUnexecuted := by
  intro s hrun hawait hpc hnone
  obtain ⟨e, hdec⟩ := decode_error_of_no_row hnone
  exact ⟨_, step_of_decode_error hrun hawait hpc hdec, raises_setDirty_halt s false _,
    onlyChanges_setDirty_halt s false _⟩

theorem exec_ret_of_empty (s : State) (hempty : s.sp.val = 0) :
    ∃ t, exec .ret s = .next t ∧ Raises .stackUnderflow s t ∧ OnlyChanges [.run, .err] s t :=
  ⟨_, execRet_of_empty s hempty, raises_halt s _, onlyChanges_halt s _⟩

/-- Settles O16: each of the two is the fault raised from the state unchanged. -/
theorem fullCallAndEmptyRetFault : Obligations.FullCallAndEmptyRetFault := by
  intro s
  exact ⟨fun hfull nnn => exec_call_of_full nnn s hfull, exec_ret_of_empty s⟩

end Sys2Proof.Proofs
end

section
/-! SUPPORT. The entry state of 70_reset_and_hazards.md R171: what `State.reset` and `hostReset` leave in the four fields
that say where and how a run begins. -/

namespace Sys2Proof.Proofs

open Sys2Proof Sys2Proof.Machine

theorem reset_entry :
    State.reset.pc = programStart ∧ State.reset.run = .running ∧ State.reset.await = none ∧ State.reset.err = none :=
  ⟨rfl, rfl, rfl, rfl⟩

/-- `hostReset` differs from `State.reset` in `draws` and `cfg` alone, so it enters where `State.reset` does. -/
theorem hostReset_entry (r : State) :
    (hostReset r).pc = programStart ∧ (hostReset r).run = .running ∧ (hostReset r).await = none ∧
      (hostReset r).err = none :=
  reset_entry

/-- Settles O49: both ways to be right after reset enter at `programStart`, one above the reserved region. -/
theorem resetEntersAt0x200 : Obligations.ResetEntersAt0x200 := by
  refine ⟨programStart_eq, fun s hs => ?_⟩
  have hentry : s.pc = programStart ∧ s.run = .running ∧ s.await = none ∧ s.err = none := by
    rcases hs with rfl | ⟨r, rfl⟩
    · exact reset_entry
    · exact hostReset_entry r
  obtain ⟨hpc, hrest⟩ := hentry
  exact ⟨hpc ▸ programStart_eq, hrest⟩

end Sys2Proof.Proofs
end

section
/-! SUPPORT. The round trip of decode and encode (30_encoding.md sections 2, 4, 5), and the opcode map read the other way:
a word that a row matches decodes. -/

namespace Sys2Proof.Proofs

open Sys2Proof Sys2Proof.Machine Sys2Proof.Laws

/-! ### From an instruction to its word and back -/

/-- A word of the 0 group is 00E0 or 00EE only by its operand. -/
theorem decodeZeroGroup_formatNNN {nnn : Addr12} (h : sysOperandTaken nnn = false) :
    decodeZeroGroup (formatNNN 0x0 nnn) = .sys nnn := by
  have hoperand {w : Word} (hw : formatNNN 0x0 nnn = w) : nnn = nnnField w := by rw [← hw, nnnField_formatNNN]
  rw [sysOperandTaken, Bool.or_eq_false_iff, beq_eq_false_iff_ne, beq_eq_false_iff_ne] at h
  obtain ⟨hcls, hret⟩ := h
  rw [decodeZeroGroup, if_neg fun hw => hcls (hoperand (w := 0x00E0) hw), if_neg fun hw => hret (hoperand (w := 0x00EE) hw),
    nnnField_formatNNN]

theorem decode_sys {nnn : Addr12} (h : sysOperandTaken nnn = false) : decode (formatNNN 0x0 nnn) = .ok (.sys nnn) := by
  rw [decode, opField_formatNNN, decodeZeroGroup_formatNNN h]
  rfl

/-- Settles O2: each field of the word is the operand it was made from, so the group and its key give the instruction
back; only for SYS does it take the operand's own check. -/
theorem decodeReadsBackEncode : Obligations.DecodeReadsBackEncode := by
  intro i hwf
  cases i
  case cls | ret => decide
  case sys nnn => exact decode_sys ((Bool.not_eq_true' _).mp hwf)
  case ldReg | or | and | xor | addReg | sub | shr | subn | shl => simp [encode, decode, decodeEightGroup]
  case skp | sknp => simp [encode, decode, decodeEGroup]
  case ldVxDt | ldVxK | ldDtVx | ldStVx | addIVx | ldFVx | ldBVx | ldMemVx | ldVxMem =>
    simp [encode, decode, decodeFGroup]
  all_goals simp [encode, decode]

/-! ### From a word to its instruction and back -/

variable {w : Word} {i : Instr}

theorem formatNNN_nnnField {op : Nibble} (hop : opField w = op) : formatNNN op (nnnField w) = w := by
  rw [← hop, formatNNN_fields]

theorem formatXKK_xField {op : Nibble} {kk : Byte} (hop : opField w = op) (hkk : kkField w = kk) :
    formatXKK op (xField w) kk = w := by
  rw [← hop, ← hkk, formatXKK_fields]

theorem formatXYN_xField_yField {op n : Nibble} (hop : opField w = op) (hn : nField w = n) :
    formatXYN op (xField w) (yField w) n = w := by
  rw [← hop, ← hn, formatXYN_fields]

theorem sysOperandTaken_nnnField (hop : opField w = 0x0) (hcls : w ≠ 0x00E0) (hret : w ≠ 0x00EE) :
    sysOperandTaken (nnnField w) = false := by
  have hword {nnn : Addr12} (h : nnnField w = nnn) : w = formatNNN 0x0 nnn := by rw [← h, formatNNN_nnnField hop]
  rw [sysOperandTaken, Bool.or_eq_false_iff, beq_eq_false_iff_ne, beq_eq_false_iff_ne]
  exact ⟨fun h => hcls (hword h), fun h => hret (hword h)⟩

theorem encode_decodeZeroGroup (hop : opField w = 0x0) :
    encode (decodeZeroGroup w) = w ∧ (decodeZeroGroup w).wellFormed = true := by
  unfold decodeZeroGroup
  split
  case isTrue hcls => exact ⟨hcls.symm, rfl⟩
  case isFalse hcls =>
    split
    case isTrue hret => exact ⟨hret.symm, rfl⟩
    case isFalse hret =>
      exact ⟨formatNNN_nnnField hop, (Bool.not_eq_true' _).mpr (sysOperandTaken_nnnField hop hcls hret)⟩

theorem encode_of_decodeEightGroup (hop : opField w = 0x8) (h : decodeEightGroup w = .ok i) :
    encode i = w ∧ i.wellFormed = true := by
  unfold decodeEightGroup at h
  split at h <;> cases h
  all_goals exact ⟨formatXYN_xField_yField hop ‹_›, rfl⟩

theorem encode_of_decodeEGroup (hop : opField w = 0xE) (h : decodeEGroup w = .ok i) :
    encode i = w ∧ i.wellFormed = true := by
  unfold decodeEGroup at h
  split at h <;> cases h
  all_goals exact ⟨formatXKK_xField hop ‹_›, rfl⟩

theorem encode_of_decodeFGroup (hop : opField w = 0xF) (h : decodeFGroup w = .ok i) :
    encode i = w ∧ i.wellFormed = true := by
  unfold decodeFGroup at h
  split at h <;> cases h
  all_goals exact ⟨formatXKK_xField hop ‹_›, rfl⟩

/-- Settles O3: the decoder cuts a word into the fields that the format of its row puts together again; one case per
value of `opField`, the fifteenth being 0xE and the last, by exclusion, 0xF. -/
theorem encodeGivesBackDecodedWord : Obligations.EncodeGivesBackDecodedWord := by
  intro w i h
  unfold decode at h
  split at h
  case h_1 hop =>
    cases h
    exact encode_decodeZeroGroup hop
  case h_2 | h_3 | h_11 | h_12 =>
    cases h
    exact ⟨formatNNN_nnnField ‹_›, rfl⟩
  case h_4 | h_5 | h_7 | h_8 | h_13 =>
    cases h
    exact ⟨formatXKK_xField ‹_› rfl, rfl⟩
  case h_6 | h_10 =>
    split at h <;> cases h
    exact ⟨formatXYN_xField_yField ‹_› ‹_›, rfl⟩
  case h_9 hop => exact encode_of_decodeEightGroup hop h
  case h_14 hop =>
    cases h
    exact ⟨formatXYN_xField_yField hop rfl, rfl⟩
  case h_15 hop => exact encode_of_decodeEGroup hop h
  case h_16 =>
    have hop : opField w = 0xF := by
      simp only [imp_false] at *
      bv_omega
    exact encode_of_decodeFGroup hop h

/-! ### The fields of a word that a row matches -/

section Matches

variable {r : OpcodeRow} (hr : r ∈ opcodeRows) (h : r.matches w = true)
include h

theorem nField_of_matches (hmask : nField r.mask = 0xF) : nField w = nField r.bits := by
  rw [← beq_iff_eq.mp h, nField, nField, BitVec.extractLsb'_and]
  exact ((congrArg _ hmask).trans (nibble_and_ones _)).symm

theorem kkField_of_matches (hmask : kkField r.mask = 0xFF) : kkField w = kkField r.bits := by
  rw [← beq_iff_eq.mp h, kkField, kkField, BitVec.extractLsb'_and]
  exact ((congrArg _ hmask).trans BitVec.and_allOnes).symm

include hr

theorem opField_of_matches : opField w = opField r.bits := by
  have hmask : opField r.mask = 0xF := (by decide : ∀ r ∈ opcodeRows, opField r.mask = 0xF) r hr
  rw [← beq_iff_eq.mp h, opField, opField, BitVec.extractLsb'_and]
  exact ((congrArg _ hmask).trans (nibble_and_ones _)).symm

/-- The groups 5 and 9 have one row each, the one with `n = 0`. -/
theorem nField_of_matches_five_nine (hop : opField w = 0x5 ∨ opField w = 0x9) : nField w = 0 := by
  rw [opField_of_matches hr h] at hop
  obtain ⟨hmask, hbits⟩ := (by decide : ∀ r ∈ opcodeRows, opField r.bits = 0x5 ∨ opField r.bits = 0x9 →
    nField r.mask = 0xF ∧ nField r.bits = 0) r hr hop
  rw [nField_of_matches h hmask, hbits]

theorem decodeEightGroup_of_matches (hop : opField w = 0x8) : ∃ i, decodeEightGroup w = .ok i := by
  rw [opField_of_matches hr h] at hop
  obtain ⟨hmask, hbits⟩ := (by decide : ∀ r ∈ opcodeRows, opField r.bits = 0x8 →
    nField r.mask = 0xF ∧ nField r.bits ∈ [0x0, 0x1, 0x2, 0x3, 0x4, 0x5, 0x6, 0x7, 0xE]) r hr hop
  rw [← nField_of_matches h hmask] at hbits
  simp only [List.mem_cons, List.not_mem_nil, or_false] at hbits
  rcases hbits with hn | hn | hn | hn | hn | hn | hn | hn | hn <;> exact ⟨_, by rw [decodeEightGroup, hn]; rfl⟩

theorem decodeEGroup_of_matches (hop : opField w = 0xE) : ∃ i, decodeEGroup w = .ok i := by
  rw [opField_of_matches hr h] at hop
  obtain ⟨hmask, hbits⟩ := (by decide : ∀ r ∈ opcodeRows, opField r.bits = 0xE →
    kkField r.mask = 0xFF ∧ kkField r.bits ∈ [0x9E, 0xA1]) r hr hop
  rw [← kkField_of_matches h hmask] at hbits
  simp only [List.mem_cons, List.not_mem_nil, or_false] at hbits
  rcases hbits with hkk | hkk <;> exact ⟨_, by rw [decodeEGroup, hkk]; rfl⟩

theorem decodeFGroup_of_matches (hop : opField w = 0xF) : ∃ i, decodeFGroup w = .ok i := by
  rw [opField_of_matches hr h] at hop
  obtain ⟨hmask, hbits⟩ := (by decide : ∀ r ∈ opcodeRows, opField r.bits = 0xF →
    kkField r.mask = 0xFF ∧ kkField r.bits ∈ [0x07, 0x0A, 0x15, 0x18, 0x1E, 0x29, 0x33, 0x55, 0x65]) r hr hop
  rw [← kkField_of_matches h hmask] at hbits
  simp only [List.mem_cons, List.not_mem_nil, or_false] at hbits
  rcases hbits with hkk | hkk | hkk | hkk | hkk | hkk | hkk | hkk | hkk <;>
    exact ⟨_, by rw [decodeFGroup, hkk]; rfl⟩

/-- One case per value of `opField`: only the groups 5, 8, 9, E and F ask for more than it. -/
theorem decode_of_matches : ∃ i, decode w = .ok i := by
  unfold decode
  split
  case h_6 hop => exact ⟨_, if_pos (nField_of_matches_five_nine hr h (.inl hop))⟩
  case h_10 hop => exact ⟨_, if_pos (nField_of_matches_five_nine hr h (.inr hop))⟩
  case h_9 hop => exact decodeEightGroup_of_matches hr h hop
  case h_15 hop => exact decodeEGroup_of_matches hr h hop
  case h_16 =>
    have hop : opField w = 0xF := by
      simp only [imp_false] at *
      bv_omega
    exact decodeFGroup_of_matches hr h hop
  all_goals exact ⟨_, rfl⟩

end Matches

/-! ### The illegal words -/

/-- The decoder has one way to reject a word, and it names the word. -/
theorem eq_illegalOpcode_of_decode_error {e : DecodeError} (h : decode w = .error e) : e = .illegalOpcode w := by
  unfold decode decodeEightGroup decodeEGroup decodeFGroup at h
  split at h
  case h_6 | h_9 | h_10 | h_15 | h_16 =>
    split at h <;> cases h
    rfl
  all_goals cases h

theorem decode_ok_iff_matches : (∃ i, decode w = .ok i) ↔ ∃ r ∈ opcodeRows, r.matches w = true := by
  constructor
  · rintro ⟨i, hi⟩
    exact ⟨rowOf i, rowOf_mem_opcodeRows i, rowOf_decode_matches hi⟩
  · rintro ⟨r, hr, h⟩
    exact decode_of_matches hr h

theorem decode_error_iff_no_row :
    decode w = .error (.illegalOpcode w) ↔ ∀ r ∈ opcodeRows, r.matches w = false := by
  constructor
  · intro herror r hr
    by_contra hmatches
    obtain ⟨i, hi⟩ := decode_of_matches hr (Bool.eq_true_of_not_eq_false hmatches)
    rw [hi] at herror
    cases herror
  · intro hnone
    obtain ⟨e, he⟩ := decode_error_of_no_row hnone
    rw [he, eq_illegalOpcode_of_decode_error he]

/-- Settles O4: a word that decodes matches the row of its instruction, and the fields a row fixes are those the decoder
asks for. -/
theorem illegalWordsMatchNoRow : Obligations.IllegalWordsMatchNoRow :=
  fun _ => ⟨decode_error_iff_no_row, decode_ok_iff_matches⟩

/-! ### The rows against each other -/

/-- Two rows that match one word agree where both masks keep its bits. -/
theorem bits_and_mask_of_matches {r q : OpcodeRow} (hr : r.matches w = true) (hq : q.matches w = true) :
    r.bits &&& q.mask = q.bits &&& r.mask := by
  rw [← beq_iff_eq.mp hr, ← beq_iff_eq.mp hq]
  ac_rfl

/-- The only two pairs of rows that agree there, by inspection of the 35. -/
theorem overlapping_rows : ∀ r ∈ opcodeRows, ∀ q ∈ opcodeRows, r.bits &&& q.mask = q.bits &&& r.mask → r ≠ q →
    (r = rowOf (.sys 0) ∧ q = rowOf .cls ∨ r = rowOf .cls ∧ q = rowOf (.sys 0)) ∨
    (r = rowOf (.sys 0) ∧ q = rowOf .ret ∨ r = rowOf .ret ∧ q = rowOf (.sys 0)) := by
  decide

theorem eq_of_cls_matches (h : (rowOf .cls).matches w = true) : w = 0x00E0 :=
  BitVec.and_allOnes.symm.trans (beq_iff_eq.mp h)

theorem eq_of_ret_matches (h : (rowOf .ret).matches w = true) : w = 0x00EE :=
  BitVec.and_allOnes.symm.trans (beq_iff_eq.mp h)

/-- Settles O5: of two overlapping rows one is CLS or RET, whose mask keeps the whole word. -/
theorem opcodeRowsDisjointButForSys : Obligations.OpcodeRowsDisjointButForSys := by
  intro w r hr q hq hrw hqw hne
  rcases overlapping_rows r hr q hq (bits_and_mask_of_matches hrw hqw) hne with hcls | hret
  · have hw : (rowOf .cls).matches w = true := by
      rcases hcls with ⟨-, rfl⟩ | ⟨rfl, -⟩ <;> assumption
    exact .inl ⟨eq_of_cls_matches hw, hcls⟩
  · have hw : (rowOf .ret).matches w = true := by
      rcases hret with ⟨-, rfl⟩ | ⟨rfl, -⟩ <;> assumption
    exact .inr ⟨eq_of_ret_matches hw, hret⟩

/-- Settles O1: each of the ten words is run through the decoder. -/
theorem writtenWordsDecode : Obligations.WrittenWordsDecode := by
  unfold Obligations.WrittenWordsDecode
  decide

end Sys2Proof.Proofs
end

section
/-! SUPPORT. What an instruction may write, said once for all 35: the fault table of 60_exceptions.md R150 as equations of
`exec`, and the parts each instruction may change when it does not fault. -/

namespace Sys2Proof.Proofs

open Sys2Proof Sys2Proof.Machine

/-! ### Frames of the remaining shared operations -/

theorem onlyChanges_refl (s : State) : OnlyChanges [] s s := by
  intro p _
  cases p <;> simp [Part.same]

theorem onlyChanges_advance_of {ps : List Part} {s t : State} (h : OnlyChanges ps s t) (k : Word) :
    OnlyChanges (.pc :: ps) s (t.advance k) :=
  onlyChanges_trans h (onlyChanges_advance t k)

theorem onlyChanges_setAwait (s : State) (a : Option Nibble) : OnlyChanges [.await] s (s.setAwait a) := by
  intro p hp
  cases p <;> simp_all [Part.same]

theorem onlyChanges_setKeyState (s : State) (k : Nibble) (p : Bool) : OnlyChanges [.key] s (s.setKeyState k p) := by
  intro q hq
  cases q <;> simp_all [Part.same]

theorem onlyChanges_countDraw (s : State) : OnlyChanges [.draws] s s.countDraw := by
  intro p hp
  cases p <;> simp_all [Part.same]

theorem onlyChanges_loadRegs (s : State) (x : Nibble) : OnlyChanges [.V] s (s.loadRegs x) := by
  intro p hp
  cases p <;> simp_all [Part.same]

theorem onlyChanges_moveIndex (s : State) (x : Nibble) : OnlyChanges [.I] s (s.moveIndex x) := by
  intro p hp
  cases p <;> simp_all [Part.same]

theorem onlyChanges_writeResultThenFlag (s : State) (x : Nibble) (r f : Byte) :
    OnlyChanges [.V] s (s.writeResultThenFlag x r f) := by
  intro p hp
  cases p <;> simp_all [Part.same]

theorem onlyChanges_writeLogicResult (s : State) (x : Nibble) (r : Byte) :
    OnlyChanges [.V] s (s.writeLogicResult x r) := by
  intro p hp
  cases p <;> simp_all [Part.same]

/-! ### The parts an instruction may write -/

/-- The parts that an instruction may change when it does not fault, the last one written first. -/
def writtenParts : Instr → List Part
  | .cls => [.pc, .dirty, .fb]
  | .ret | .call _ => [.pc, .stack]
  | .sys _ | .jp _ | .jpV0 _ | .seImm _ _ | .sneImm _ _ | .seReg _ _ | .sneReg _ _ | .skp _ | .sknp _ => [.pc]
  | .ldImm _ _ | .addImm _ _ | .ldReg _ _ | .or _ _ | .and _ _ | .xor _ _ | .addReg _ _ | .sub _ _ | .shr _ _
  | .subn _ _ | .shl _ _ | .ldVxDt _ => [.pc, .V]
  | .rnd _ _ => [.pc, .V, .draws]
  | .ldI _ | .addIVx _ | .ldFVx _ => [.pc, .I]
  | .drw _ _ _ => [.pc, .dirty, .V, .fb]
  | .ldVxK _ => [.await]
  | .ldDtVx _ => [.pc, .DT]
  | .ldStVx _ => [.pc, .ST]
  | .ldBVx _ => [.pc, .mem]
  | .ldMemVx _ => [.pc, .I, .mem]
  | .ldVxMem _ => [.pc, .I, .V]

variable {i : Instr} {s t : State}

/-! ### The fault table as equations of `exec` -/

theorem executeFault_entry_some {c : Prop} [Decidable c] {e e' : Error} (h : (if c then some e' else none) = some e) :
    c ∧ e' = e := by
  rw [Option.ite_none_right_eq_some] at h
  exact ⟨h.1, Option.some.inj h.2⟩

theorem executeFault_entry_none {c : Prop} [Decidable c] {e : Error} (h : (if c then some e else none) = none) : ¬c :=
  fun hc => by simp [hc] at h

/-- An instruction that the fault table stops raises that fault and does nothing of its own. -/
theorem exec_of_executeFault {e : Error} (h : executeFault i s = some e) : exec i s = .next (s.halt e) := by
  cases i
  case ret =>
    obtain ⟨hempty, rfl⟩ := executeFault_entry_some h
    exact execRet_of_empty s hempty
  case call nnn =>
    obtain ⟨hfull, rfl⟩ := executeFault_entry_some h
    exact execCall_of_full s nnn hfull
  case drw x y n =>
    obtain ⟨⟨hn, hI⟩, rfl⟩ := executeFault_entry_some h
    exact execDrw_of_outOfBounds s x y n hn hI
  case skp x =>
    obtain ⟨hkey, rfl⟩ := executeFault_entry_some h
    exact execSkp_of_gt s x hkey
  case sknp x =>
    obtain ⟨hkey, rfl⟩ := executeFault_entry_some h
    exact execSknp_of_gt s x hkey
  case ldBVx x =>
    obtain ⟨hI, rfl⟩ := executeFault_entry_some h
    exact execLdBVx_of_gt s x hI
  case ldMemVx x =>
    obtain ⟨hI, rfl⟩ := executeFault_entry_some h
    exact execLdMemVx_of_gt s x hI
  case ldVxMem x =>
    obtain ⟨hI, rfl⟩ := executeFault_entry_some h
    exact execLdVxMem_of_gt s x hI
  all_goals cases h

/-! No fault, as the equations of the eight instructions that can fault ask for it: the depth, the sprite's span, and the
upper bound of an address or a key index. -/

theorem sp_pos_of_no_fault (h : executeFault .ret s = none) : 0 < s.sp.val :=
  Nat.pos_of_ne_zero (executeFault_entry_none h)

theorem sp_lt_of_no_fault {nnn : Addr12} (h : executeFault (.call nnn) s = none) : s.sp.val < 16 := by
  have hne := executeFault_entry_none h
  omega

theorem drw_inBounds_of_no_fault {x y n : Nibble} (h : executeFault (.drw x y n) s = none) :
    n.toNat = 0 ∨ s.I.toNat + n.toNat - 1 ≤ 0xFFF := by
  have hno := executeFault_entry_none h
  omega

theorem le_of_no_fault {a b : Nat} {e : Error} (h : (if a > b then some e else none) = none) : a ≤ b :=
  Nat.not_lt.mp (executeFault_entry_none h)

/-- An instruction that the fault table lets through answers a next state and writes its own parts alone. -/
theorem exec_onlyChanges (h : executeFault i s = none) :
    ∃ t, exec i s = .next t ∧ OnlyChanges (writtenParts i) s t := by
  cases i
  case cls =>
    exact ⟨_, rfl, onlyChanges_advance_of
      (onlyChanges_trans (onlyChanges_setFb s blankScreen) (onlyChanges_setDirty _ true)) instrLen⟩
  case ret =>
    exact ⟨_, execRet_of_pos s (sp_pos_of_no_fault h),
      onlyChanges_trans (onlyChanges_setStack s _ _) (onlyChanges_setPc _ _)⟩
  case call nnn =>
    exact ⟨_, execCall_of_lt s nnn (sp_lt_of_no_fault h),
      onlyChanges_trans (onlyChanges_setStack s _ _) (onlyChanges_setPc _ _)⟩
  case skp x => exact ⟨_, execSkp_of_le s x (le_of_no_fault h), onlyChanges_skipIf s _⟩
  case sknp x => exact ⟨_, execSknp_of_le s x (le_of_no_fault h), onlyChanges_skipIf s _⟩
  case sys | jp | jpV0 | seImm | sneImm | seReg | sneReg => exact ⟨_, rfl, onlyChanges_setPc s _⟩
  case ldImm | addImm | ldReg | ldVxDt => exact ⟨_, rfl, onlyChanges_advance_of (onlyChanges_setReg s _ _) instrLen⟩
  case or | and | xor => exact ⟨_, rfl, onlyChanges_advance_of (onlyChanges_writeLogicResult s _ _) instrLen⟩
  case addReg | sub | shr | subn | shl =>
    exact ⟨_, rfl, onlyChanges_advance_of (onlyChanges_writeResultThenFlag s _ _ _) instrLen⟩
  case rnd x kk =>
    exact ⟨_, rfl, onlyChanges_advance_of
      (onlyChanges_trans (onlyChanges_countDraw s) (onlyChanges_setReg _ x _)) instrLen⟩
  case ldI | addIVx | ldFVx => exact ⟨_, rfl, onlyChanges_advance_of (onlyChanges_setI s _) instrLen⟩
  case ldDtVx => exact ⟨_, rfl, onlyChanges_advance_of (onlyChanges_setDT s _) instrLen⟩
  case ldStVx => exact ⟨_, rfl, onlyChanges_advance_of (onlyChanges_setST s _) instrLen⟩
  case ldVxK x => exact ⟨_, rfl, onlyChanges_setAwait s (some x)⟩
  case drw x y n =>
    have hdrawn := onlyChanges_trans (onlyChanges_setFb s (s.drawSprite (s.reg x) (s.reg y) n.toNat).1)
      (onlyChanges_setReg _ VF (flagByte (s.drawSprite (s.reg x) (s.reg y) n.toNat).2))
    exact ⟨_, execDrw_of_inBounds s x y n (drw_inBounds_of_no_fault h),
      onlyChanges_advance_of (onlyChanges_trans hdrawn (onlyChanges_setDirty _ true)) instrLen⟩
  case ldBVx x =>
    exact ⟨_, execLdBVx_of_le s x (le_of_no_fault h), onlyChanges_advance_of (onlyChanges_storeBytes s _ _) instrLen⟩
  case ldMemVx x =>
    exact ⟨_, execLdMemVx_of_le s x (le_of_no_fault h), onlyChanges_advance_of
      (onlyChanges_trans (onlyChanges_storeBytes s _ _) (onlyChanges_moveIndex _ x)) instrLen⟩
  case ldVxMem x =>
    exact ⟨_, execLdVxMem_of_le s x (le_of_no_fault h), onlyChanges_advance_of
      (onlyChanges_trans (onlyChanges_loadRegs s x) (onlyChanges_moveIndex _ x)) instrLen⟩

/-! ### What every execution does, faulting or not -/

theorem eq_of_exec_eq {t' : State} (h : exec i s = .next t) (h' : exec i s = .next t') : t = t' := by
  rw [h] at h'
  exact Host.Outcome.next.inj h'

/-- What `exec` can do: raise the fault of the table, or write the parts of its instruction alone. -/
theorem exec_cases (h : exec i s = .next t) :
    (∃ e, executeFault i s = some e ∧ t = s.halt e) ∨
    (executeFault i s = none ∧ OnlyChanges (writtenParts i) s t) := by
  cases hfault : executeFault i s with
  | some e => exact .inl ⟨e, rfl, eq_of_exec_eq h (exec_of_executeFault hfault)⟩
  | none =>
    obtain ⟨t', hexec, hframe⟩ := exec_onlyChanges hfault
    rw [eq_of_exec_eq h hexec]
    exact .inr ⟨rfl, hframe⟩

/-- A part that neither the instruction nor a fault writes is unchanged, on either path. -/
theorem part_same_of_exec (h : exec i s = .next t) {p : Part} (hp : p ∉ writtenParts i) (hfault : p ≠ .run ∧ p ≠ .err) :
    p.same s t := by
  rcases exec_cases h with ⟨e, -, rfl⟩ | ⟨-, hframe⟩
  · exact onlyChanges_halt s e p (by simp [hfault])
  · exact hframe p hp

theorem run_err_not_mem_writtenParts (i : Instr) : Part.run ∉ writtenParts i ∧ Part.err ∉ writtenParts i := by
  cases i <;> simp [writtenParts]

/-- Settles O12: the two sides of the fault table; no instruction lists the run state or the latch among its parts. -/
theorem executeFaultsAreTheTableAndPrecise : Obligations.ExecuteFaultsAreTheTableAndPrecise := by
  intro i s
  constructor
  · intro e hfault
    exact ⟨_, exec_of_executeFault hfault, State.halt_entersHalted s e⟩
  · intro hfault
    obtain ⟨t, hexec, hframe⟩ := exec_onlyChanges hfault
    obtain ⟨hrun, herr⟩ := run_err_not_mem_writtenParts i
    exact ⟨t, hexec, hframe .run hrun, hframe .err herr⟩

/-! ### Which instructions write which part -/

theorem stack_not_mem_writtenParts (hret : i ≠ .ret) (hcall : ∀ nnn, i ≠ .call nnn) : .stack ∉ writtenParts i := by
  cases i
  case ret => exact absurd rfl hret
  case call nnn => exact absurd rfl (hcall nnn)
  all_goals simp [writtenParts]

theorem fb_dirty_not_mem_writtenParts (hcls : i ≠ .cls) (hdrw : ∀ x y n, i ≠ .drw x y n) :
    .fb ∉ writtenParts i ∧ .dirty ∉ writtenParts i := by
  cases i
  case cls => exact absurd rfl hcls
  case drw x y n => exact absurd rfl (hdrw x y n)
  all_goals simp [writtenParts]

theorem key_cfg_not_mem_writtenParts (i : Instr) : .key ∉ writtenParts i ∧ .cfg ∉ writtenParts i := by
  cases i <;> simp [writtenParts]

theorem DT_not_mem_writtenParts (h : ∀ x, i ≠ .ldDtVx x) : .DT ∉ writtenParts i := by
  cases i
  case ldDtVx x => exact absurd rfl (h x)
  all_goals simp [writtenParts]

theorem ST_not_mem_writtenParts (h : ∀ x, i ≠ .ldStVx x) : .ST ∉ writtenParts i := by
  cases i
  case ldStVx x => exact absurd rfl (h x)
  all_goals simp [writtenParts]

theorem draws_not_mem_writtenParts (h : ∀ x kk, i ≠ .rnd x kk) : .draws ∉ writtenParts i := by
  cases i
  case rnd x kk => exact absurd rfl (h x kk)
  all_goals simp [writtenParts]

theorem await_not_mem_writtenParts (h : ∀ x, i ≠ .ldVxK x) : .await ∉ writtenParts i := by
  cases i
  case ldVxK x => exact absurd rfl (h x)
  all_goals simp [writtenParts]

theorem mem_not_mem_writtenParts (hB : ∀ x, i ≠ .ldBVx x) (hMem : ∀ x, i ≠ .ldMemVx x) : .mem ∉ writtenParts i := by
  cases i
  case ldBVx x => exact absurd rfl (hB x)
  case ldMemVx x => exact absurd rfl (hMem x)
  all_goals simp [writtenParts]

/-- Settles O56: only CALL and RET list the stack among the parts they write. -/
theorem onlyCallAndRetTouchTheStack : Obligations.OnlyCallAndRetTouchTheStack :=
  fun _ _ _ h hret hcall => part_same_of_exec h (stack_not_mem_writtenParts hret hcall) (by decide)

/-- Settles O58: each part against the instructions that list it. -/
theorem eachStateHasItsOwnWriters : Obligations.EachStateHasItsOwnWriters := by
  intro i s t h
  obtain ⟨hkey, hcfg⟩ := key_cfg_not_mem_writtenParts i
  exact ⟨part_same_of_exec h hkey (by decide), part_same_of_exec h hcfg (by decide),
    fun hi => part_same_of_exec h (DT_not_mem_writtenParts hi) (by decide),
    fun hi => part_same_of_exec h (ST_not_mem_writtenParts hi) (by decide),
    fun hi => part_same_of_exec h (draws_not_mem_writtenParts hi) (by decide),
    fun hi => part_same_of_exec h (await_not_mem_writtenParts hi) (by decide),
    fun hB hMem => part_same_of_exec h (mem_not_mem_writtenParts hB hMem) (by decide)⟩

end Sys2Proof.Proofs
end

section
/-! SUPPORT. The pc after an instruction (10_state.md R25): the targets, the skips and the key that a register names. -/

namespace Sys2Proof.Proofs

open Sys2Proof Sys2Proof.Machine

variable {i : Instr} {s t : State}

theorem jumpV0Target_toNat (s : State) (nnn : Addr12) :
    (s.jumpV0Target nnn).toNat = nnn.toNat + (s.reg 0).toNat := by
  have hbyte : (zext16 (s.reg 0)).toNat = (s.reg 0).toNat := BitVec.toNat_setWidth_of_le (by decide)
  have hnnn : nnn.toNat < 4096 := nnn.isLt
  have hV0 : (s.reg 0).toNat < 256 := (s.reg 0).isLt
  rw [State.jumpV0Target, BitVec.toNat_add, addressOf_toNat, hbyte]
  exact Nat.mod_eq_of_lt (by omega)

/-- A skip on a test that decides `c` moves on by 4 when `c` holds and by 2 when it does not. -/
theorem skipIf_pc_of_iff (s : State) {b : Bool} {c : Prop} (h : b = true ↔ c) :
    (c → (s.skipIf b).pc = s.pc + 4) ∧ (¬c → (s.skipIf b).pc = s.pc + 2) := by
  constructor
  · intro hc
    rw [h.mpr hc]
    rfl
  · intro hc
    rw [Bool.eq_false_iff.mpr fun hb => hc (h.mp hb)]
    rfl

theorem setWidth_four_toNat {v : Byte} (hv : v.toNat ≤ 0x0F) : (v.setWidth 4).toNat = v.toNat := by
  rw [BitVec.toNat_setWidth]
  exact Nat.mod_eq_of_lt (by omega)

theorem keyDown_setWidth_iff (s : State) {v : Byte} (hv : v.toNat ≤ 0x0F) :
    s.keyDown (v.setWidth 4) = true ↔ NamedKeyDown s v := by
  constructor
  · intro hdown
    exact ⟨_, setWidth_four_toNat hv, hdown⟩
  · rintro ⟨k, hk, hdown⟩
    rwa [BitVec.eq_of_toNat_eq ((setWidth_four_toNat hv).trans hk.symm)]

theorem not_keyDown_setWidth_iff (s : State) {v : Byte} (hv : v.toNat ≤ 0x0F) :
    (!s.keyDown (v.setWidth 4)) = true ↔ ¬NamedKeyDown s v := by
  rw [← keyDown_setWidth_iff s hv, Bool.not_eq_true', Bool.not_eq_true]

theorem exec_pcAfter (h : executeFault i s = none) : ∃ t, exec i s = .next t ∧ PcAfter i s t := by
  cases i
  case seImm | seReg => exact ⟨_, rfl, skipIf_pc_of_iff s beq_iff_eq⟩
  case sneImm | sneReg => exact ⟨_, rfl, skipIf_pc_of_iff s bne_iff_ne⟩
  case skp x =>
    have hkey := le_of_no_fault h
    exact ⟨_, execSkp_of_le s x hkey, skipIf_pc_of_iff s (keyDown_setWidth_iff s hkey)⟩
  case sknp x =>
    have hkey := le_of_no_fault h
    exact ⟨_, execSknp_of_le s x hkey, skipIf_pc_of_iff s (not_keyDown_setWidth_iff s hkey)⟩
  case jp nnn => exact ⟨_, rfl, addressOf_toNat nnn⟩
  case jpV0 nnn => exact ⟨_, rfl, jumpV0Target_toNat s nnn⟩
  case call nnn => exact ⟨_, execCall_of_lt s nnn (sp_lt_of_no_fault h), addressOf_toNat nnn⟩
  case ret =>
    have hpos := sp_pos_of_no_fault h
    exact ⟨_, execRet_of_pos s hpos, ⟨s.sp.val - 1, by omega⟩, (Nat.sub_add_cancel hpos).symm, rfl⟩
  case drw x y n => exact ⟨_, execDrw_of_inBounds s x y n (drw_inBounds_of_no_fault h), rfl⟩
  case ldBVx x => exact ⟨_, execLdBVx_of_le s x (le_of_no_fault h), rfl⟩
  case ldMemVx x =>
    exact ⟨_, execLdMemVx_of_le s x (le_of_no_fault h), congrArg (· + 2) (State.moveIndex_pc _ x)⟩
  case ldVxMem x =>
    exact ⟨_, execLdVxMem_of_le s x (le_of_no_fault h), congrArg (· + 2) (State.moveIndex_pc _ x)⟩
  case or | and | xor => exact ⟨_, rfl, congrArg (· + 2) (State.writeLogicResult_pc s _ _)⟩
  all_goals exact ⟨_, rfl, rfl⟩

end Sys2Proof.Proofs
end

section
/-! SUPPORT. The transactions other than `tick` (10_state.md R57, R58, 60_exceptions.md R163), each case as one equation,
with what it changes. -/

namespace Sys2Proof.Proofs

open Sys2Proof Sys2Proof.Machine

variable {s : State} {k : Nibble} {p : Bool} {bytes : List Byte}

/-! ### setKey -/

theorem setKey_of_fresh {x : Nibble} (hrun : s.run = .running) (hawait : s.await = some x)
    (hup : s.keyDown k = false) :
    setKey k true s = (((s.setKeyState k true).setReg x (k.setWidth 8)).advance instrLen).setAwait none := by
  rw [setKey, if_pos ⟨hrun, rfl, hup⟩, completeKeyWait, State.setKeyState_await, hawait]

theorem setKey_of_not_fresh (h : s.run = .halted ∨ s.await = none ∨ p = false ∨ s.keyDown k = true) :
    setKey k p s = s.setKeyState k p := by
  unfold setKey
  split
  case isTrue hfresh =>
    have hawait : s.await = none := by simp_all
    rw [completeKeyWait, State.setKeyState_await, hawait]
  case isFalse => rfl

theorem setKey_cases (k : Nibble) (p : Bool) (s : State) :
    (∃ x, s.run = .running ∧ s.await = some x ∧ p = true ∧ s.keyDown k = false) ∨
      (s.run = .halted ∨ s.await = none ∨ p = false ∨ s.keyDown k = true) := by
  cases s.run <;> cases s.await <;> cases p <;> cases s.keyDown k <;> simp

theorem onlyChanges_setKey_of_fresh {x : Nibble} (hrun : s.run = .running) (hawait : s.await = some x)
    (hup : s.keyDown k = false) : OnlyChanges [.await, .pc, .V, .key] s (setKey k true s) := by
  rw [setKey_of_fresh hrun hawait hup]
  exact onlyChanges_trans (onlyChanges_advance_of
    (onlyChanges_trans (onlyChanges_setKeyState s k true) (onlyChanges_setReg _ x _)) instrLen)
    (onlyChanges_setAwait _ none)

theorem onlyChanges_setKey_of_not_fresh (h : s.run = .halted ∨ s.await = none ∨ p = false ∨ s.keyDown k = true) :
    OnlyChanges [.key] s (setKey k p s) := by
  rw [setKey_of_not_fresh h]
  exact onlyChanges_setKeyState s k p

theorem onlyChanges_setKey (k : Nibble) (p : Bool) (s : State) :
    OnlyChanges [.await, .pc, .V, .key] s (setKey k p s) := by
  rcases setKey_cases k p s with ⟨x, hrun, hawait, rfl, hup⟩ | hnot
  · exact onlyChanges_setKey_of_fresh hrun hawait hup
  · exact onlyChanges_of_subset (by simp) (onlyChanges_setKey_of_not_fresh hnot)

/-- The key itself is set whatever else the press does. -/
theorem setKey_keyDown (k : Nibble) (p : Bool) (s : State) (q : Nibble) :
    (setKey k p s).keyDown q = if q = k then p else s.keyDown q := by
  rcases setKey_cases k p s with ⟨x, hrun, hawait, rfl, hup⟩ | hnot
  · rw [setKey_of_fresh hrun hawait hup, State.setAwait_keyDown, State.advance_keyDown, State.setReg_keyDown,
      State.setKeyState_keyDown]
  · rw [setKey_of_not_fresh hnot, State.setKeyState_keyDown]

theorem setKey_sets_its_key_alone (k : Nibble) (p : Bool) (s : State) :
    (setKey k p s).keyDown k = p ∧ ∀ q, q ≠ k → (setKey k p s).keyDown q = s.keyDown q :=
  ⟨by rw [setKey_keyDown, if_pos rfl], fun q hq => by rw [setKey_keyDown, if_neg hq]⟩

/-- Settles O47: the fresh press is the one case in which more than the key changes. -/
theorem freshPressCompletesTheWait : Obligations.FreshPressCompletesTheWait := by
  intro k p s
  refine ⟨setKey_sets_its_key_alone k p s, ?_, onlyChanges_setKey_of_not_fresh⟩
  rintro x hrun hawait rfl hup
  have hframe := onlyChanges_setKey_of_fresh hrun hawait hup
  have hkey : (k.setWidth 8).toNat = k.toNat := BitVec.toNat_setWidth_of_le (by decide)
  rw [setKey_of_fresh hrun hawait hup] at hframe ⊢
  obtain ⟨hreg, honly, hpc, -⟩ := setReg_advance_effect (s.setKeyState k true) x (k.setWidth 8)
  exact ⟨(congrArg BitVec.toNat hreg).trans hkey, honly, hpc, rfl, onlyChanges_of_subset (by simp) hframe⟩

/-- Settles O13: the pc of an execution is the listed one, a fault keeps it, and the key press is the fresh one. -/
theorem everyInstructionUpdatesPcAsListed : Obligations.EveryInstructionUpdatesPcAsListed := by
  intro i s
  refine ⟨exec_pcAfter, fun hfault => ?_, fun k hrun hawait hup => ?_⟩
  · obtain ⟨e, he⟩ := Option.ne_none_iff_exists'.mp hfault
    exact ⟨_, exec_of_executeFault he, rfl⟩
  · obtain ⟨x, hx⟩ := Option.ne_none_iff_exists'.mp hawait
    rw [setKey_of_fresh hrun hx hup]
    rfl

/-! ### loadRom -/

theorem loadRom_of_le (s : State) (h : bytes.length ≤ 3584) :
    loadRom bytes s = (s.storeBytes programStart.toNat bytes, none) :=
  if_neg (Nat.not_lt.mpr h)

theorem loadRom_of_gt (s : State) (h : bytes.length > 3584) :
    loadRom bytes s = (s.halt .romTooLarge, some .romTooLarge) :=
  if_pos h

theorem onlyChanges_loadRom (bytes : List Byte) (s : State) :
    OnlyChanges [.run, .err, .mem] s (loadRom bytes s).1 := by
  rcases Nat.lt_or_ge 3584 bytes.length with hgt | hle
  · rw [loadRom_of_gt s hgt]
    exact onlyChanges_of_subset (by simp) (onlyChanges_halt s .romTooLarge)
  · rw [loadRom_of_le s hle]
    exact onlyChanges_of_subset (by simp) (onlyChanges_storeBytes s _ bytes)

/-- A ROM of up to 3584 bytes ends with the memory. -/
theorem loadRom_fits (h : bytes.length ≤ 3584) : programStart.toNat + bytes.length ≤ memSize := by
  rw [← romMax_eq]
  exact Nat.add_le_add_left h _

theorem loadRom_places_bytes (hm : MemCanonical s) (h : bytes.length ≤ 3584) :
    (loadRom bytes s).2 = none ∧
      (∀ k (hk : k < bytes.length), (loadRom bytes s).1.readByte (0x200 + k) = bytes[k]) ∧
      OnlyBytes 0x200 bytes.length s (loadRom bytes s).1 ∧ OnlyChanges [.mem] s (loadRom bytes s).1 := by
  rw [loadRom_of_le s h]
  exact ⟨rfl, fun k hk => State.storeBytes_readByte s hm (loadRom_fits h) hk, onlyBytes_storeBytes s _ bytes,
    onlyChanges_storeBytes s _ bytes⟩

/-- Of the transactions other than `tick` only `loadRom` returns a fault, and only for its length. -/
theorem transact_fault_of_ne_tick {tr : Transaction} (htick : tr ≠ .tick) (hfault : (transact tr s).2 ≠ none) :
    ∃ rom, tr = .loadRom rom ∧ rom.length > 3584 := by
  cases tr
  case tick => exact absurd rfl htick
  case loadRom rom =>
    refine ⟨rom, rfl, Nat.lt_of_not_le fun hle => hfault ?_⟩
    rw [transact, loadRom_of_le s hle]
  all_goals exact absurd rfl hfault

/-- Settles O51: the length decides between the store at 0x200 and the fault. -/
theorem loadRomPlacesBytesOrFaults : Obligations.LoadRomPlacesBytesOrFaults := by
  intro bytes s
  refine ⟨loadRom_places_bytes, fun hgt => ?_, fun _ => transact_fault_of_ne_tick⟩
  rw [loadRom_of_gt s hgt]
  exact ⟨rfl, raises_halt s .romTooLarge⟩

/-- Settles O52: the length is checked before any byte is written. -/
theorem failedLoadWritesNothing : Obligations.FailedLoadWritesNothing := by
  intro bytes s hgt
  rw [loadRom_of_gt s hgt]
  exact State.halt_entersHalted s .romTooLarge

/-! ### tickTimers -/

theorem tickTimers_of_running (hrun : s.run = .running) :
    tickTimers s = (s.setDT (countDown s.DT)).setST (countDown s.ST) := by
  rw [tickTimers, hrun]

theorem tickTimers_of_halted (hrun : s.run = .halted) : tickTimers s = s := by
  rw [tickTimers, hrun]

theorem onlyChanges_tickTimers (s : State) : OnlyChanges [.ST, .DT] s (tickTimers s) := by
  cases hrun : s.run with
  | halted =>
    rw [tickTimers_of_halted hrun]
    exact onlyChanges_of_subset (by simp) (onlyChanges_refl s)
  | running =>
    rw [tickTimers_of_running hrun]
    exact onlyChanges_trans (onlyChanges_setDT s _) (onlyChanges_setST _ _)

theorem countDown_toNat (v : Byte) : (countDown v).toNat = v.toNat - 1 := by
  unfold countDown
  split
  case isTrue hzero => rw [hzero]; rfl
  case isFalse hpos => bv_omega

/-- Settles O48, by induction on the number of timer ticks: one tick takes one from each timer, and the machine still
runs after it. -/
theorem timersCountDownToZero : Obligations.TimersCountDownToZero := by
  intro n
  induction n with
  | zero =>
    intro s _
    exact ⟨rfl, rfl, onlyChanges_of_subset (by simp) (onlyChanges_refl s)⟩
  | succ n ih =>
    intro s hrun
    have hframe := onlyChanges_tickTimers s
    obtain ⟨hDT, hST, hrest⟩ := ih (tickTimers s) ((hframe .run (by simp)).trans hrun)
    have hDT1 : (tickTimers s).DT.toNat = s.DT.toNat - 1 := by rw [tickTimers_of_running hrun]; exact countDown_toNat _
    have hST1 : (tickTimers s).ST.toNat = s.ST.toNat - 1 := by rw [tickTimers_of_running hrun]; exact countDown_toNat _
    refine ⟨hDT.trans (by omega), hST.trans (by omega), ?_⟩
    exact onlyChanges_of_subset (by simp) (onlyChanges_trans hframe hrest)

/-! ### All of them -/

/-- Of the transactions other than `tick` and `reset` none lists the screen or `dirty`. -/
theorem onlyChanges_transact {tr : Transaction} (htick : tr ≠ .tick) (hreset : tr ≠ .reset) (s : State) :
    OnlyChanges [.await, .pc, .V, .key, .run, .err, .mem, .ST, .DT] s (transact tr s).1 := by
  cases tr
  case tick => exact absurd rfl htick
  case reset => exact absurd rfl hreset
  case tickTimers => exact onlyChanges_of_subset (by simp) (onlyChanges_tickTimers s)
  case setKey k p => exact onlyChanges_of_subset (by simp) (onlyChanges_setKey k p s)
  case loadRom bytes => exact onlyChanges_of_subset (by simp) (onlyChanges_loadRom bytes s)

/-- Settles O57: only CLS and DRW list the screen and `dirty` among the parts they write, and of the other transactions
only `reset` does. -/
theorem onlyClsAndDrwWriteTheScreen : Obligations.OnlyClsAndDrwWriteTheScreen := by
  constructor
  · intro i s t h hcls hdrw
    obtain ⟨hfb, hdirty⟩ := fb_dirty_not_mem_writtenParts hcls hdrw
    exact ⟨part_same_of_exec h hfb (by decide), part_same_of_exec h hdirty (by decide)⟩
  · intro tr s htick hreset
    have hframe := onlyChanges_transact htick hreset s
    exact ⟨hframe .fb (by simp), hframe .dirty (by simp)⟩

end Sys2Proof.Proofs
end

section
/-! SUPPORT. The step (10_state.md R51): each of its cases as an equation, what a tick returns, and when `dirty` is set. -/

namespace Sys2Proof.Proofs

open Sys2Proof Sys2Proof.Machine

variable {i : Instr} {s t : State}

theorem step_of_halted (hrun : s.run = .halted) : step s = .fault (.halted s.err) := by
  rw [step, cycle, hrun]

theorem step_of_awaiting (hrun : s.run = .running) (hawait : s.await ≠ none) : step s = .next (s.setDirty false) := by
  obtain ⟨x, hx⟩ := Option.ne_none_iff_exists'.mp hawait
  rw [step, cycle, hrun, hx]

theorem step_of_decode_ok (hrun : s.run = .running) (hawait : s.await = none) (hpc : s.pc.toNat ≤ 0xFFE)
    (hdec : decode (wordOfBytes (s.readByte s.pc.toNat) (s.readByte (s.pc.toNat + 1))) = .ok i) :
    step s = exec i (s.setDirty false) := by
  rcases step_cases s with ⟨hhalted, -⟩ | ⟨-, hawaits, -⟩ | ⟨-, -, ⟨hgt, -⟩ | ⟨-, hstep⟩⟩
  · rw [hrun] at hhalted
    cases hhalted
  · exact absurd hawait hawaits
  · omega
  · rwa [hdec] at hstep

/-- A step of a running machine: it clears `dirty` and waits, faults before it executes, or executes what it fetched. -/
theorem step_of_running (hrun : s.run = .running) :
    (s.await ≠ none ∧ step s = .next (s.setDirty false)) ∨
    (∃ e, step s = .next ((s.setDirty false).halt e)) ∨
    (s.await = none ∧ s.pc.toNat ≤ 0xFFE ∧
      ∃ w i, s.fetch = some w ∧ decode w = .ok i ∧ step s = exec i (s.setDirty false)) := by
  by_cases hawait : s.await = none
  case neg => exact .inl ⟨hawait, step_of_awaiting hrun hawait⟩
  case pos =>
    rcases Nat.lt_or_ge 0xFFE s.pc.toNat with hgt | hle
    · exact .inr (.inl ⟨_, step_of_pc_gt hrun hawait hgt⟩)
    · cases hdec : decode (wordOfBytes (s.readByte s.pc.toNat) (s.readByte (s.pc.toNat + 1))) with
      | error e => exact .inr (.inl ⟨_, step_of_decode_error hrun hawait hle hdec⟩)
      | ok i =>
        exact .inr (.inr ⟨hawait, hle, _, i, State.fetch_of_le s hle, hdec, step_of_decode_ok hrun hawait hle hdec⟩)

theorem step_answers_next (hrun : s.run = .running) : ∃ t, step s = .next t := by
  rcases step_of_running hrun with ⟨-, hstep⟩ | ⟨e, hstep⟩ | ⟨-, -, w, i, -, -, hstep⟩
  · exact ⟨_, hstep⟩
  · exact ⟨_, hstep⟩
  · rw [hstep]
    exact exec_answers_next _ i

theorem run_of_step_next (h : step s = .next t) : s.run = .running := by
  cases hrun : s.run with
  | running => rfl
  | halted =>
    rw [step_of_halted hrun] at h
    cases h

/-- The same three cases, of the state a step ends in. -/
theorem step_next_cases (h : step s = .next t) :
    (s.await ≠ none ∧ t = s.setDirty false) ∨ (∃ e, t = (s.setDirty false).halt e) ∨
    (s.await = none ∧ s.pc.toNat ≤ 0xFFE ∧
      ∃ w i, s.fetch = some w ∧ decode w = .ok i ∧ exec i (s.setDirty false) = .next t) := by
  rcases step_of_running (run_of_step_next h) with ⟨hawait, hstep⟩ | ⟨e, hstep⟩ | ⟨hawait, hpc, w, i, hw, hi, hstep⟩
  · rw [hstep] at h
    exact .inl ⟨hawait, (Host.Outcome.next.inj h).symm⟩
  · rw [hstep] at h
    exact .inr (.inl ⟨e, (Host.Outcome.next.inj h).symm⟩)
  · exact .inr (.inr ⟨hawait, hpc, w, i, hw, hi, hstep ▸ h⟩)

/-! ### What a tick returns -/

theorem tick_of_next (h : step s = .next t) : tick s = (t, if t.run = .halted then t.err else none) := by
  simp only [tick, h]
  cases t.run <;> rfl

theorem tick_of_halted (hrun : s.run = .halted) : tick s = (s, s.err) := by
  rw [tick, step_of_halted hrun]

/-! ### The statements about one step -/

/-- Raising a fault after `dirty` is cleared, as the two clauses about a step that does not execute ask for it. -/
theorem setDirty_halt_effect (s : State) (e : Error) :
    EntersHalted e (s.setDirty false) ((s.setDirty false).halt e) ∧ ((s.setDirty false).halt e).dirty = false ∧
      OnlyChanges [.run, .err, .dirty] s ((s.setDirty false).halt e) :=
  ⟨State.halt_entersHalted _ e, rfl, onlyChanges_setDirty_halt s false e⟩

/-- Settles O6: the three clauses are the three cases of a running machine that awaits no key. -/
theorem stepRunsDecodedInstruction : Obligations.StepRunsDecodedInstruction := by
  intro s hrun hawait
  refine ⟨fun i => step_of_decode_ok hrun hawait, fun hpc hnone => ?_, fun hpc => ?_⟩
  · obtain ⟨e, hdec⟩ := decode_error_of_no_row hnone
    exact ⟨_, step_of_decode_error hrun hawait hpc hdec, setDirty_halt_effect s _⟩
  · exact ⟨_, step_of_pc_gt hrun hawait hpc, setDirty_halt_effect s _⟩

/-- Settles O9: the step of a machine that awaits a key is the clearing of `dirty`. -/
theorem awaitingTickOnlyClearsDirty : Obligations.AwaitingTickOnlyClearsDirty :=
  fun s hrun hawait => ⟨_, step_of_awaiting hrun hawait, rfl, onlyChanges_setDirty s false⟩

/-- Settles O11: a running machine answers a next state, and a Halted one the one fault. -/
theorem stepFaultsOnlyInHalted : Obligations.StepFaultsOnlyInHalted := by
  intro s
  cases hrun : s.run with
  | halted => simp [step_of_halted hrun, eq_comm]
  | running =>
    obtain ⟨t, hstep⟩ := step_answers_next hrun
    simp [hstep]

/-- Settles O10: in Halted the tick is the fault, the timers stand, no press is fresh, and a load keeps the run state and
a latched error. -/
theorem haltedMachineIsFrozen : Obligations.HaltedMachineIsFrozen := by
  intro s hrun
  refine ⟨step_of_halted hrun, tick_of_halted hrun, tickTimers_of_halted hrun, fun k p => ?_, fun bytes => ?_⟩
  · obtain ⟨hkey, hothers⟩ := setKey_sets_its_key_alone k p s
    exact ⟨hkey, hothers, onlyChanges_setKey_of_not_fresh (.inl hrun)⟩
  · rcases Nat.lt_or_ge 3584 bytes.length with hgt | hle
    · rw [loadRom_of_gt s hgt]
      exact ⟨rfl, Option.or_of_isSome ∘ Option.isSome_iff_ne_none.mpr⟩
    · rw [loadRom_of_le s hle]
      exact ⟨hrun, fun _ => rfl⟩

/-! ### When `dirty` is set -/

theorem exec_cls_or_drw_dirty (h : exec i s = .next t) (hi : i = .cls ∨ ∃ x y n, i = .drw x y n)
    (hfault : executeFault i s = none) : t.dirty = true := by
  rcases hi with rfl | ⟨x, y, n, rfl⟩
  · cases h
    rfl
  · rw [eq_of_exec_eq h (execDrw_of_inBounds s x y n (drw_inBounds_of_no_fault hfault))]
    rfl

/-- Settles O59: `dirty` is cleared first, a fault does not set it and halts, and of the instructions that complete only
CLS and DRW set it. -/
theorem dirtyExactlyAfterADraw : Obligations.DirtyExactlyAfterADraw := by
  intro s t hrun hstep
  rcases step_next_cases hstep with ⟨hawait, rfl⟩ | ⟨e, rfl⟩ | ⟨hawait, -, w, i, hw, hi, hexec⟩
  · simp [hawait]
  · simp
  · have hdraws : (∃ w i, s.fetch = some w ∧ decode w = .ok i ∧ (i = .cls ∨ ∃ x y n, i = .drw x y n)) ↔
        (i = .cls ∨ ∃ x y n, i = .drw x y n) := by simp [hw, hi]
    rw [hdraws]
    rcases exec_cases hexec with ⟨e, -, rfl⟩ | ⟨hfault, hframe⟩
    · simp
    · have htrun : t.run = .running := (hframe .run (run_err_not_mem_writtenParts i).1).trans hrun
      constructor
      · intro hdirty
        refine ⟨hawait, ?_, htrun⟩
        by_contra hother
        rw [not_or] at hother
        obtain ⟨hcls, hdrw⟩ := hother
        obtain ⟨-, hnot⟩ := fb_dirty_not_mem_writtenParts hcls fun x y n hi => hdrw ⟨x, y, n, hi⟩
        exact absurd (hdirty.symm.trans (hframe .dirty hnot)) (by simp)
      · rintro ⟨-, hdrawing, -⟩
        exact exec_cls_or_drw_dirty hexec hdrawing hfault

/-! ### The error latch -/

theorem errIffHalted_of_eq (hs : ErrIffHalted s) (hrun : t.run = s.run) (herr : t.err = s.err) : ErrIffHalted t := by
  rwa [ErrIffHalted, hrun, herr]

theorem errIffHalted_halt (s : State) (e : Error) : ErrIffHalted (s.halt e) := by
  simp [ErrIffHalted]

theorem exec_errIffHalted (hs : ErrIffHalted s) (h : exec i s = .next t) : ErrIffHalted t := by
  rcases exec_cases h with ⟨e, -, rfl⟩ | ⟨-, hframe⟩
  · exact errIffHalted_halt s e
  · obtain ⟨hrun, herr⟩ := run_err_not_mem_writtenParts i
    exact errIffHalted_of_eq hs (hframe .run hrun) (hframe .err herr)

theorem step_errIffHalted (hs : ErrIffHalted s) (h : step s = .next t) : ErrIffHalted t := by
  rcases step_next_cases h with ⟨-, rfl⟩ | ⟨e, rfl⟩ | ⟨-, -, w, i, -, -, hexec⟩
  · exact errIffHalted_of_eq hs rfl rfl
  · exact errIffHalted_halt _ e
  · exact exec_errIffHalted (s := s.setDirty false) hs hexec

/-- Settles O60: after a step the latch says Halted, so it is empty exactly when the machine runs on. -/
theorem tickReturnsTheFaultItRaised : Obligations.TickReturnsTheFaultItRaised := by
  intro s hs
  cases hrun : s.run with
  | halted =>
    have herr := hs.mpr hrun
    simp [tick_of_halted hrun, hrun, herr]
  | running =>
    obtain ⟨t, hstep⟩ := step_answers_next hrun
    have ht := step_errIffHalted hs hstep
    rw [tick_of_next hstep]
    cases htrun : t.run with
    | halted => simpa [htrun] using ht.mpr htrun
    | running =>
      have herr : t.err = none := by simpa [ErrIffHalted, htrun] using ht
      simp [herr]

end Sys2Proof.Proofs
end

section
/-! SUPPORT. The machine's invariant (10_state.md sections 4, 7 and 10), one part at a time, over an execution, a step and a
host transaction. -/

namespace Sys2Proof.Proofs

open Sys2Proof Sys2Proof.Machine

variable {i : Instr} {s t : State}

/-! ### Memory in canonical form (log 6) -/

theorem memCanonical_of_eq (hs : MemCanonical s) (hmem : t.mem = s.mem) (hcfg : t.cfg = s.cfg) : MemCanonical t := by
  rwa [MemCanonical, hmem, hcfg]

/-- The list of cells is the same after every execution but those of Fx33 and Fx55 that complete. -/
theorem exec_mem (h : exec i s = .next t) (hB : ∀ x, i ≠ .ldBVx x) (hMem : ∀ x, i ≠ .ldMemVx x) : t.mem = s.mem := by
  rcases exec_cases h with ⟨e, -, rfl⟩ | ⟨hfault, -⟩
  · rfl
  · cases i
    case ldBVx x => exact absurd rfl (hB x)
    case ldMemVx x => exact absurd rfl (hMem x)
    case ret => rw [eq_of_exec_eq h (execRet_of_pos s (sp_pos_of_no_fault hfault))]; rfl
    case call nnn => rw [eq_of_exec_eq h (execCall_of_lt s nnn (sp_lt_of_no_fault hfault))]; rfl
    case drw x y n => rw [eq_of_exec_eq h (execDrw_of_inBounds s x y n (drw_inBounds_of_no_fault hfault))]; rfl
    case skp x => rw [eq_of_exec_eq h (execSkp_of_le s x (le_of_no_fault hfault))]; rfl
    case sknp x => rw [eq_of_exec_eq h (execSknp_of_le s x (le_of_no_fault hfault))]; rfl
    case ldVxMem x =>
      rw [eq_of_exec_eq h (execLdVxMem_of_le s x (le_of_no_fault hfault))]
      exact State.moveIndex_mem _ x
    case or | and | xor =>
      cases h
      exact State.writeLogicResult_mem s _ _
    all_goals
      cases h
      rfl

theorem storeBytes_canonical_of_span {a : Nat} {x : Nibble} (hs : MemCanonical s) (h : a + x.toNat ≤ 0xFFF) :
    MemCanonical (s.storeBytes a (s.regsThrough x)) := by
  refine State.storeBytes_canonical s hs ?_
  rw [State.regsThrough_length]
  exact Nat.succ_le_succ h

theorem exec_memCanonical (hs : MemCanonical s) (h : exec i s = .next t) : MemCanonical t := by
  have hcfg : t.cfg = s.cfg := part_same_of_exec h (key_cfg_not_mem_writtenParts i).2 (by decide)
  rcases exec_cases h with ⟨e, -, rfl⟩ | ⟨hfault, -⟩
  · exact memCanonical_of_eq hs rfl rfl
  · by_cases hB : ∃ x, i = .ldBVx x
    · obtain ⟨x, rfl⟩ := hB
      have hI : s.I.toNat + 2 ≤ 0xFFF := le_of_no_fault hfault
      rw [eq_of_exec_eq h (execLdBVx_of_le s x hI)] at hcfg ⊢
      exact memCanonical_of_eq (State.storeBytes_canonical s hs (Nat.succ_le_succ hI)) rfl hcfg
    · by_cases hMem : ∃ x, i = .ldMemVx x
      · obtain ⟨x, rfl⟩ := hMem
        have hI : s.I.toNat + x.toNat ≤ 0xFFF := le_of_no_fault hfault
        rw [eq_of_exec_eq h (execLdMemVx_of_le s x hI)] at hcfg ⊢
        exact memCanonical_of_eq (storeBytes_canonical_of_span hs hI) (State.moveIndex_mem _ x) hcfg
      · exact memCanonical_of_eq hs (exec_mem h (not_exists.mp hB) (not_exists.mp hMem)) hcfg

/-! ### The bounds of pc and of the return addresses -/

theorem pcBounded_of_same (hs : PcBounded s) (hpc : t.pc = s.pc) (hstack : Part.stack.same s t)
    (hawait : t.await = s.await) : PcBounded t := by
  obtain ⟨hpcs, hstacks, hawaits⟩ := hs
  obtain ⟨-, hentries⟩ := hstack
  exact ⟨hpc ▸ hpcs, fun j => hentries j ▸ hstacks j, by rwa [hpc, hawait]⟩

/-- What every frame without pc, the stack and the wait keeps. -/
theorem pcBounded_of_onlyChanges {ps : List Part} (hs : PcBounded s) (h : OnlyChanges ps s t) (hpc : .pc ∉ ps)
    (hstack : .stack ∉ ps) (hawait : .await ∉ ps) : PcBounded t :=
  pcBounded_of_same hs (h .pc hpc) (h .stack hstack) (h .await hawait)

theorem skip_pc_le {c : Prop} {p q : Word} (hp : p.toNat ≤ 0xFFE) (h : (c → q = p + 4) ∧ (¬c → q = p + 2)) :
    q.toNat ≤ 0x10FE := by
  obtain ⟨htaken, hnot⟩ := h
  by_cases hc : c
  · rw [htaken hc]
    bv_omega
  · rw [hnot hc]
    bv_omega

/-- From a fetched instruction: 0x10FE is nnn + V0 at its largest (10_state.md R26). -/
theorem pc_le_of_pcAfter (hpc : s.pc.toNat ≤ 0xFFE) (hstack : ∀ j : Fin 16, (s.stack[j.val]).toNat ≤ 0x1000)
    (h : PcAfter i s t) : t.pc.toNat ≤ 0x10FE := by
  cases i
  case seImm | sneImm | seReg | sneReg | skp | sknp => exact skip_pc_le hpc h
  case jp nnn | call nnn =>
    have hnnn : nnn.toNat < 4096 := nnn.isLt
    exact h.trans_le (by omega)
  case jpV0 nnn =>
    have hnnn : nnn.toNat < 4096 := nnn.isLt
    have hV0 : (s.reg 0).toNat < 256 := (s.reg 0).isLt
    exact h.trans_le (by omega)
  case ret =>
    obtain ⟨j, -, htarget⟩ := h
    rw [htarget]
    exact (hstack j).trans (by decide)
  case ldVxK =>
    rw [show t.pc = s.pc from h]
    omega
  all_goals
    rw [show t.pc = s.pc + 2 from h]
    bv_omega

theorem exec_stack_le (hpc : s.pc.toNat ≤ 0xFFE) (hstack : ∀ j : Fin 16, (s.stack[j.val]).toNat ≤ 0x1000)
    (hfault : executeFault i s = none) (h : exec i s = .next t) (j : Fin 16) : (t.stack[j.val]).toNat ≤ 0x1000 := by
  by_cases hret : i = .ret
  · subst hret
    rw [eq_of_exec_eq h (execRet_of_pos s (sp_pos_of_no_fault hfault))]
    exact hstack j
  · by_cases hcall : ∃ nnn, i = .call nnn
    · obtain ⟨nnn, rfl⟩ := hcall
      rw [eq_of_exec_eq h (execCall_of_lt s nnn (sp_lt_of_no_fault hfault))]
      simp only [State.setPc_stack, State.setStack_stack, Vector.getElem_set]
      split
      case isTrue =>
        rw [instrLen]
        bv_omega
      case isFalse => exact hstack j
    · obtain ⟨-, hentries⟩ := onlyCallAndRetTouchTheStack i s t h hret (not_exists.mp hcall)
      rw [hentries j]
      exact hstack j

theorem exec_pcBounded (hs : PcBounded s) (hpc : s.pc.toNat ≤ 0xFFE) (hawait : s.await = none)
    (h : exec i s = .next t) : PcBounded t := by
  rcases exec_cases h with ⟨e, -, rfl⟩ | ⟨hfault, hframe⟩
  · exact pcBounded_of_onlyChanges hs (onlyChanges_halt s e) (by simp) (by simp) (by simp)
  · obtain ⟨-, hstack, -⟩ := hs
    obtain ⟨t', hexec, hafter⟩ := exec_pcAfter hfault
    rw [← eq_of_exec_eq h hexec] at hafter
    refine ⟨pc_le_of_pcAfter hpc hstack hafter, exec_stack_le hpc hstack hfault h, fun hwaits => ?_⟩
    by_cases hK : ∃ x, i = .ldVxK x
    · obtain ⟨x, rfl⟩ := hK
      rwa [show t.pc = s.pc from hafter]
    · exact absurd ((hframe .await (await_not_mem_writtenParts (not_exists.mp hK))).trans hawait) hwaits

/-! ### The invariant over a step -/

/-- `dirty` is none of the invariant's business. -/
theorem inv_setDirty (hs : Inv s) (d : Bool) : Inv (s.setDirty d) := hs

theorem inv_halt (hs : Inv s) (e : Error) : Inv (s.halt e) := by
  obtain ⟨-, hmem, hpc⟩ := hs
  exact ⟨errIffHalted_halt s e, hmem, hpc⟩

theorem exec_inv (hs : Inv s) (hpc : s.pc.toNat ≤ 0xFFE) (hawait : s.await = none) (h : exec i s = .next t) :
    Inv t := by
  obtain ⟨herr, hmem, hbounds⟩ := hs
  exact ⟨exec_errIffHalted herr h, exec_memCanonical hmem h, exec_pcBounded hbounds hpc hawait h⟩

/-- Settles O53: clearing `dirty` and raising a fault keep the invariant, and an instruction is executed only where it was
fetched, at a pc of at most 0xFFE with no key awaited. -/
theorem stepKeepsInvariant : Obligations.StepKeepsInvariant := by
  intro s t hs hstep
  have hcleared := inv_setDirty hs false
  rcases step_next_cases hstep with ⟨-, rfl⟩ | ⟨e, rfl⟩ | ⟨hawait, hpc, w, i, -, -, hexec⟩
  · exact hcleared
  · exact inv_halt hcleared e
  · exact exec_inv hcleared hpc hawait hexec

/-! ### The invariant over the host's transactions -/

theorem tick_inv (hs : Inv s) : Inv (tick s).1 := by
  cases hrun : s.run with
  | halted => rwa [tick_of_halted hrun]
  | running =>
    obtain ⟨t, hstep⟩ := step_answers_next hrun
    rw [tick_of_next hstep]
    exact stepKeepsInvariant s t hs hstep

theorem tickTimers_inv (hs : Inv s) : Inv (tickTimers s) := by
  cases hrun : s.run with
  | halted => rwa [tickTimers_of_halted hrun]
  | running => rwa [tickTimers_of_running hrun]

/-- The wait that a fresh press ends was at a pc of at most 0xFFE, so pc + 2 is in bounds. -/
theorem setKey_inv (hs : Inv s) (k : Nibble) (p : Bool) : Inv (setKey k p s) := by
  rcases setKey_cases k p s with ⟨x, hrun, hawait, rfl, hup⟩ | hnot
  · obtain ⟨herr, hmem, -, hstack, hwait⟩ := hs
    have hpc : s.pc.toNat ≤ 0xFFE := hwait (by simp [hawait])
    rw [setKey_of_fresh hrun hawait hup]
    refine ⟨herr, hmem, ?_, hstack, fun hnone => absurd rfl hnone⟩
    show (s.pc + 2).toNat ≤ 0x10FE
    bv_omega
  · rw [setKey_of_not_fresh hnot]
    exact hs

theorem loadRom_inv (hs : Inv s) (bytes : List Byte) : Inv (loadRom bytes s).1 := by
  rcases Nat.lt_or_ge 3584 bytes.length with hgt | hle
  · rw [loadRom_of_gt s hgt]
    exact inv_halt hs .romTooLarge
  · obtain ⟨herr, hmem, hbounds⟩ := hs
    rw [loadRom_of_le s hle]
    exact ⟨herr, State.storeBytes_canonical s hmem (loadRom_fits hle), hbounds⟩

/-- An empty memory is canonical for every font, and every address in the state after reset is in bounds. -/
theorem hostReset_inv (s : State) : Inv (hostReset s) := by
  refine ⟨?_, rfl, (by decide : programStart.toNat ≤ 0x10FE), fun j => ?_, fun hwaits => absurd rfl hwaits⟩
  · simp [ErrIffHalted, hostReset, State.reset]
  · simp [hostReset, State.reset]

theorem transact_inv (hs : Inv s) (tr : Transaction) : Inv (transact tr s).1 := by
  cases tr with
  | tick => exact tick_inv hs
  | tickTimers => exact tickTimers_inv hs
  | setKey k p => exact setKey_inv hs k p
  | loadRom bytes => exact loadRom_inv hs bytes
  | reset => exact hostReset_inv s

/-- Settles O54, by induction on the sequence: each transaction keeps the invariant. -/
theorem transactionsKeepInvariant : Obligations.TransactionsKeepInvariant := by
  intro ts
  induction ts with
  | nil => exact fun _ hs => hs
  | cons tr ts ih => exact fun s hs => ih (transact tr s).1 (transact_inv hs tr)

/-- Settles O55: the state at construction is what `reset()` gives from it. -/
theorem resetHasInvariant : Obligations.ResetHasInvariant :=
  hostReset_inv State.reset

end Sys2Proof.Proofs
end

section
/-! SUPPORT. SYS, RET and JP V0, and a CALL and its RET over two steps (40_control_flow.md sections 2 and 3). -/

namespace Sys2Proof.Proofs

open Sys2Proof Sys2Proof.Machine

variable {s : State}

/-- Settles O14: SYS is the advance alone. -/
theorem sysOnlyAdvancesPc : Obligations.SysOnlyAdvancesPc :=
  fun _ s => ⟨_, rfl, rfl, onlyChanges_advance s instrLen⟩

/-- Settles O15: the pop moves the depth and reads the entry below it, and no entry is written. -/
theorem retPopsReturnAddress : Obligations.RetPopsReturnAddress := by
  intro s j hj
  refine ⟨_, execRet_of_pos s (by omega), ?_, ?_, fun q => rfl,
    onlyChanges_trans (onlyChanges_setStack s _ _) (onlyChanges_setPc _ _)⟩
  · exact congrArg (· - 1) hj
  · simp [hj]

/-- Settles O19: the target written is the sum, which is below 2^16. -/
theorem jpV0AddsV0Unmasked : Obligations.JpV0AddsV0Unmasked :=
  fun nnn s => ⟨_, rfl, jumpV0Target_toNat s nnn, onlyChanges_setPc s _⟩

/-- The state after a CALL, as the RET at its target meets it. -/
theorem step_call {nnn : Addr12} (hrun : s.run = .running) (hawait : s.await = none) (hpc : s.pc.toNat ≤ 0xFFE)
    (hsp : s.sp.val < 16)
    (hdec : decode (wordOfBytes (s.readByte s.pc.toNat) (s.readByte (s.pc.toNat + 1))) = .ok (.call nnn)) :
    ∃ t, step s = .next t ∧ t.sp.val = s.sp.val + 1 ∧ t.stack[s.sp.val] = s.pc + 2 ∧ t.pc.toNat = nnn.toNat ∧
      OnlyChanges [.pc, .stack, .dirty] s t := by
  refine ⟨_, (step_of_decode_ok hrun hawait hpc hdec).trans (execCall_of_lt (s.setDirty false) nnn hsp), rfl, ?_,
    addressOf_toNat nnn, ?_⟩
  · simp [instrLen]
  · exact onlyChanges_trans (onlyChanges_setDirty s false)
      (onlyChanges_trans (onlyChanges_setStack _ _ _) (onlyChanges_setPc _ _))

theorem step_ret (hrun : s.run = .running) (hawait : s.await = none) (hpc : s.pc.toNat ≤ 0xFFE) {j : Fin 16}
    (hsp : s.sp.val = j.val + 1)
    (hdec : decode (wordOfBytes (s.readByte s.pc.toNat) (s.readByte (s.pc.toNat + 1))) = .ok .ret) :
    ∃ t, step s = .next t ∧ t.sp.val = j.val ∧ t.pc = s.stack[j.val] ∧ OnlyChanges [.pc, .stack, .dirty] s t := by
  obtain ⟨t, hexec, hspt, hpct, -, hframe⟩ := retPopsReturnAddress (s.setDirty false) j hsp
  exact ⟨t, (step_of_decode_ok hrun hawait hpc hdec).trans hexec, hspt, hpct,
    onlyChanges_trans (onlyChanges_setDirty s false) hframe⟩

/-- Settles O22: the CALL leaves memory alone, so its target still holds 00EE, and the RET pops what it pushed. -/
theorem callThenRetComesBack : Obligations.CallThenRetComesBack := by
  intro s nnn hrun hawait hpc hnnn hsp hdec hhi hlo
  obtain ⟨t, hstep, hspt, hpushed, hpct, hframe⟩ := step_call hrun hawait hpc hsp hdec
  have hmem : ∀ a, t.readByte a = s.readByte a := hframe .mem (by simp)
  have hret : decode (wordOfBytes (t.readByte t.pc.toNat) (t.readByte (t.pc.toNat + 1))) = .ok .ret := by
    rw [hpct, hmem, hmem, hhi, hlo]
    decide
  obtain ⟨u, hstep', hspu, hpcu, hframe'⟩ := step_ret ((hframe .run (by simp)).trans hrun)
    ((hframe .await (by simp)).trans hawait) (by omega) (j := ⟨s.sp.val, hsp⟩) hspt hret
  exact ⟨t, u, hstep, hstep', hpcu.trans hpushed, Fin.ext hspu,
    onlyChanges_of_subset (by simp) (onlyChanges_trans hframe hframe')⟩

end Sys2Proof.Proofs
end

section
/-! SUPPORT. Instructions that write a result and VF (41_alu.md R112 to R119): the flags and results as numbers, and what the two
writes change together. -/

namespace Sys2Proof.Proofs

open Sys2Proof Sys2Proof.Machine

variable {s : State}

/-- All that an instruction does which writes a result to Vx, then a flag to VF, and moves to the next one. -/
theorem writeResultThenFlag_advance_effect (s : State) (x : Nibble) (r f : Byte) {t : State}
    (ht : t = (s.writeResultThenFlag x r f).advance instrLen) :
    (x ≠ VF → t.reg x = r) ∧ t.reg VF = f ∧ OnlyRegs [x, VF] s t ∧ t.pc = s.pc + 2 ∧ OnlyChanges [.V, .pc] s t := by
  subst ht
  have hframe := onlyChanges_advance_of (onlyChanges_writeResultThenFlag s x r f) instrLen
  refine ⟨fun hx => ?_, ?_, fun q hq => ?_, rfl, onlyChanges_of_subset (by simp) hframe⟩
  · simp [State.writeResultThenFlag_reg, hx]
  · simp [State.writeResultThenFlag_reg]
  · obtain ⟨hqx, hqF⟩ : q ≠ x ∧ q ≠ VF := by simpa using hq
    simp [State.writeResultThenFlag_reg, hqx, hqF]

theorem carryFlag_eq (a b : Byte) : carryFlag a b = if a.toNat + b.toNat > 255 then 1 else 0 := by
  simp [carryFlag, flagByte_eq]

theorem notBorrowFlag_eq (a b : Byte) : notBorrowFlag a b = if a.toNat ≥ b.toNat then 1 else 0 := by
  simp [notBorrowFlag, flagByte_eq]

theorem sub_toNat (a b : Byte) : (a - b).toNat = (256 + a.toNat - b.toNat) % 256 := by
  bv_omega

theorem shiftedOutRight_toNat (a : Byte) : (shiftedOutRight a).toNat = a.toNat % 2 := by
  rw [shiftedOutRight, BitVec.toNat_and]
  exact Nat.and_one_is_mod _

theorem shiftedOutLeft_toNat (a : Byte) : (shiftedOutLeft a).toNat = a.toNat / 128 := by
  have ha : a.toNat < 256 := a.isLt
  rw [shiftedOutLeft, BitVec.toNat_and, BitVec.toNat_ushiftRight, Nat.shiftRight_eq_div_pow]
  exact (Nat.and_one_is_mod _).trans (by omega)

theorem shiftLeft_one_toNat (a : Byte) : (a <<< 1).toNat = 2 * a.toNat % 256 := by
  rw [BitVec.toNat_shiftLeft, Nat.shiftLeft_eq, Nat.mul_comm]

theorem shiftRight_one_toNat (a : Byte) : (a >>> 1).toNat = a.toNat / 2 := by
  rw [BitVec.toNat_ushiftRight, Nat.shiftRight_eq_div_pow]

theorem shiftOperand_eq {x y : Nibble} {src : Byte}
    (h : s.cfg.shiftSource = .vx ∧ src = s.reg x ∨ s.cfg.shiftSource = .vy ∧ src = s.reg y) :
    s.shiftOperand x y = src := by
  rcases h with ⟨hsource, rfl⟩ | ⟨hsource, rfl⟩ <;> rw [State.shiftOperand, hsource]

/-- Settles O27: the sum of two bytes, then the carry. -/
theorem addRegistersSetsCarry : Obligations.AddRegistersSetsCarry := by
  intro x y s
  obtain ⟨hsum, hflag, heffect⟩ :=
    writeResultThenFlag_advance_effect s x (s.reg x + s.reg y) (carryFlag (s.reg x) (s.reg y)) rfl
  exact ⟨_, rfl, fun hx => by rw [hsum hx, BitVec.toNat_add], hflag.trans (carryFlag_eq _ _), heffect⟩

/-- What SUB and SUBN share: the difference of minuend and subtrahend, then NOT borrow. -/
theorem write_difference_effect (s : State) (x : Nibble) (a b : Byte) {t : State}
    (ht : t = (s.writeResultThenFlag x (a - b) (notBorrowFlag a b)).advance instrLen) :
    (x ≠ VF → (t.reg x).toNat = (256 + a.toNat - b.toNat) % 256) ∧
      t.reg VF = (if a.toNat ≥ b.toNat then 1 else 0) ∧
      OnlyRegs [x, VF] s t ∧ t.pc = s.pc + 2 ∧ OnlyChanges [.V, .pc] s t := by
  obtain ⟨hdiff, hflag, heffect⟩ := writeResultThenFlag_advance_effect s x _ _ ht
  exact ⟨fun hx => by rw [hdiff hx, sub_toNat], hflag.trans (notBorrowFlag_eq a b), heffect⟩

/-- Settles O28: SUB and SUBN are one difference, with minuend and subtrahend exchanged. -/
theorem subtractionsSetNotBorrow : Obligations.SubtractionsSetNotBorrow :=
  fun x y s => ⟨⟨_, rfl, write_difference_effect s x (s.reg x) (s.reg y) rfl⟩,
    ⟨_, rfl, write_difference_effect s x (s.reg y) (s.reg x) rfl⟩⟩

/-- Settles O29: the shifted byte, then the bit shifted out, of the register that SHIFT_SOURCE names. -/
theorem shiftsSetTheBitShiftedOut : Obligations.ShiftsSetTheBitShiftedOut := by
  intro x y s src hsrc
  have hoperand := shiftOperand_eq hsrc
  constructor
  · obtain ⟨hshifted, hflag, heffect⟩ := writeResultThenFlag_advance_effect s x (src >>> 1) (shiftedOutRight src) rfl
    refine ⟨_, by rw [exec, execShr, hoperand], fun hx => ?_, ?_, heffect⟩
    · rw [hshifted hx, shiftRight_one_toNat]
    · rw [hflag, shiftedOutRight_toNat]
  · obtain ⟨hshifted, hflag, heffect⟩ := writeResultThenFlag_advance_effect s x (src <<< 1) (shiftedOutLeft src) rfl
    refine ⟨_, by rw [exec, execShl, hoperand], fun hx => ?_, ?_, heffect⟩
    · rw [hshifted hx, shiftLeft_one_toNat]
    · rw [hflag, shiftedOutLeft_toNat]

/-! ### The logic operations -/

/-- All that OR, AND and XOR share: the result, VF zeroed or not, and the move to the next instruction. -/
theorem writeLogicResult_advance_effect (s : State) (x : Nibble) (r : Byte) {t : State}
    (ht : t = (s.writeLogicResult x r).advance instrLen) :
    (s.cfg.logicResetsVF = true → t.reg VF = 0) ∧
      (s.cfg.logicResetsVF = false ∨ x ≠ VF → t.reg x = r) ∧
      (s.cfg.logicResetsVF = false → OnlyRegs [x] s t) ∧
      OnlyRegs [x, VF] s t ∧
      t.pc = s.pc + 2 ∧
      OnlyChanges [.V, .pc] s t := by
  subst ht
  have hframe := onlyChanges_advance_of (onlyChanges_writeLogicResult s x r) instrLen
  refine ⟨fun hresets => ?_, fun hkept => ?_, fun hkeeps q hq => ?_, fun q hq => ?_,
    congrArg (· + 2) (State.writeLogicResult_pc s x r), onlyChanges_of_subset (by simp) hframe⟩
  · simp [State.writeLogicResult_reg, hresets]
  · have hnot : ¬(s.cfg.logicResetsVF = true ∧ x = VF) := by
      rintro ⟨hresets, hx⟩
      rcases hkept with hkeeps | hne
      · rw [hresets] at hkeeps
        cases hkeeps
      · exact hne hx
    simp [State.writeLogicResult_reg, hnot]
  · have hqx : q ≠ x := by simpa using hq
    simp [State.writeLogicResult_reg, hkeeps, hqx]
  · obtain ⟨hqx, hqF⟩ : q ≠ x ∧ q ≠ VF := by simpa using hq
    simp [State.writeLogicResult_reg, hqx, hqF]

/-- The three operations as one: the result whose bits are those of `f`. -/
theorem exec_logic {x y : Nibble} {i : Instr} {f : Bool → Bool → Bool} (s : State)
    (h : i = .or x y ∧ f = Bool.or ∨ i = .and x y ∧ f = Bool.and ∨ i = .xor x y ∧ f = Bool.xor) :
    ∃ r : Byte, (∀ b, r.getLsbD b = f ((s.reg x).getLsbD b) ((s.reg y).getLsbD b)) ∧
      exec i s = .next ((s.writeLogicResult x r).advance instrLen) := by
  rcases h with ⟨rfl, rfl⟩ | ⟨rfl, rfl⟩ | ⟨rfl, rfl⟩
  · exact ⟨_, fun b => BitVec.getLsbD_or, rfl⟩
  · exact ⟨_, fun b => BitVec.getLsbD_and, rfl⟩
  · exact ⟨_, fun b => BitVec.getLsbD_xor, rfl⟩

/-- Settles O26: the bits of the result are those of the operation, and LOGIC_RESETS_VF decides the rest. -/
theorem logicOperationsBitwise : Obligations.LogicOperationsBitwise := by
  intro x y s i f h
  obtain ⟨r, hbits, hexec⟩ := exec_logic s h
  obtain ⟨hresets, hresult, heffect⟩ := writeLogicResult_advance_effect s x r rfl
  exact ⟨_, hexec, hresets, fun hkept b _ => by rw [hresult hkept, hbits], heffect⟩

end Sys2Proof.Proofs
end

section
/-! SUPPORT. The random byte, the index register, the keys and the operands out of range (41_alu.md R120, 42_index_memory.md R127
and R128, 44_keys_timers.md R142 to R147, 60_exceptions.md R151). -/

namespace Sys2Proof.Proofs

open Sys2Proof Sys2Proof.Machine

/-- Settles O30: the draw is counted, then its byte AND kk is written to Vx. -/
theorem randomByteIsMasked : Obligations.RandomByteIsMasked := by
  intro x kk s
  obtain ⟨hreg, honly, hpc, hframe⟩ := setReg_advance_effect s.countDraw x (s.randomByte &&& kk)
  exact ⟨_, rfl, hreg, rfl, honly, hpc, onlyChanges_of_subset (by simp) (onlyChanges_trans (onlyChanges_countDraw s) hframe)⟩

theorem glyphAddress_toNat (v : Byte) : (glyphAddress v).toNat = 0x050 + 5 * (v.toNat % 16) := by
  have hnibble : (v &&& 0x0F).toNat = v.toNat % 16 := by
    rw [BitVec.toNat_and]
    exact Nat.and_two_pow_sub_one_eq_mod _ 4
  rw [glyphAddress, hnibble, fontBase, BitVec.toNat_ofNat]
  exact Nat.mod_eq_of_lt (by omega)

/-- Settles O32: the 16-bit sum is written to I. -/
theorem addRegisterToIndex : Obligations.AddRegisterToIndex := by
  intro x s
  have hbyte : (zext16 (s.reg x)).toNat = (s.reg x).toNat := BitVec.toNat_setWidth_of_le (by decide)
  have hframe := onlyChanges_advance_of (onlyChanges_setI s (s.I + zext16 (s.reg x))) instrLen
  refine ⟨_, rfl, ?_, rfl, onlyChanges_of_subset (by simp) hframe⟩
  rw [State.advance_I, State.setI_I, BitVec.toNat_add, hbyte]

/-- Settles O33: the address of the glyph of the low nibble is written to I. -/
theorem loadGlyphAddress : Obligations.LoadGlyphAddress := by
  intro x s
  have hframe := onlyChanges_advance_of (onlyChanges_setI s (glyphAddress (s.reg x))) instrLen
  exact ⟨_, rfl, glyphAddress_toNat _, rfl, onlyChanges_of_subset (by simp) hframe⟩

/-- Settles O46: the wait is the one part written. -/
theorem keyWaitBegins : Obligations.KeyWaitBegins :=
  fun x s => ⟨_, rfl, rfl, onlyChanges_setAwait s (some x)⟩

/-- Settles O43: the key index is the low nibble of Vx, which is all of it. -/
theorem keySkipsReadTheNamedKey : Obligations.KeySkipsReadTheNamedKey := by
  intro x k s hk
  have hindex : k.toNat < 16 := k.isLt
  have hle : (s.reg x).toNat ≤ 0x0F := by omega
  have hkey : (s.reg x).setWidth 4 = k := BitVec.eq_of_toNat_eq ((setWidth_four_toNat hle).trans hk)
  have hskp := execSkp_of_le s x hle
  have hsknp := execSknp_of_le s x hle
  rw [hkey] at hskp hsknp
  refine ⟨⟨_, hskp, onlyChanges_skipIf s _, skipIf_pc_toNat s _⟩, ⟨_, hsknp, onlyChanges_skipIf s _, ?_⟩⟩
  rw [skipIf_pc_toNat]
  cases s.keyDown k <;> rfl

/-- Settles O37: each condition is the one in the instruction's entry of the fault table. -/
theorem outOfRangeOperandsFault : Obligations.OutOfRangeOperandsFault := by
  intro x y n s
  have hfault {i : Instr} (h : executeFault i s = some .outOfBounds) :
      ∃ t, exec i s = .next t ∧ EntersHalted .outOfBounds s t :=
    ⟨_, exec_of_executeFault h, State.halt_entersHalted s .outOfBounds⟩
  exact ⟨fun hI => hfault (if_pos hI), fun hI => ⟨hfault (if_pos hI), hfault (if_pos hI)⟩,
    fun hn hI => hfault (if_pos ⟨hn, hI⟩), fun hkey => ⟨hfault (if_pos hkey), hfault (if_pos hkey)⟩⟩

end Sys2Proof.Proofs
end

section
/-! SUPPORT. The state after `reset()` (70_reset_and_hazards.md R173): the font and the zeros that an empty memory reads as. -/

namespace Sys2Proof.Proofs

open Sys2Proof Sys2Proof.Machine

/-- A byte of the font as memory reads it after reset (10_state.md R31). -/
theorem resetByte_font (font : FontTable) (d : Fin 16) (j : Fin 5) :
    resetByte font (0x050 + 5 * d.val + j.val) = font[d.val][j.val] := by
  have hoffset : 0x050 + 5 * d.val + j.val - fontBase = 5 * d.val + j.val := by rw [fontBase]; omega
  have hglyph : (5 * d.val + j.val) / 5 = d.val := by omega
  have hbyte : (5 * d.val + j.val) % 5 = j.val := by omega
  rw [resetByte, if_pos (by rw [fontEnd, fontBase]; omega), hoffset, hglyph, hbyte]
  simp [List.getD_eq_getElem?_getD]

theorem resetByte_zero (font : FontTable) {a : Nat} (h : a < 0x050 ∨ 0x09F < a) : resetByte font a = 0 :=
  if_neg (by rw [fontEnd, fontBase]; omega)

/-- Settles O50: `hostReset` is `State.reset` but for the draw counter and the parameters, and its memory lists nothing. -/
theorem resetClearsEverything : Obligations.ResetClearsEverything := by
  intro s
  refine ⟨fun r => ?_, rfl, rfl, fun j => ?_, rfl, rfl, blankScreen_pixel, fun k => ?_, rfl, rfl,
    resetByte_font s.cfg.fontGlyphs, fun a => resetByte_zero s.cfg.fontGlyphs⟩
  · simp [State.reg, hostReset, State.reset]
  · simp [hostReset, State.reset]
  · simp [State.keyDown, hostReset, State.reset]

end Sys2Proof.Proofs
end

section
/-! SUPPORT. Fx55 and Fx65 (42_index_memory.md R131 to R133): the bytes stored and loaded, and where I ends. -/

namespace Sys2Proof.Proofs

open Sys2Proof Sys2Proof.Machine

variable {s : State}

theorem regsThrough_getElem (s : State) {x q : Nibble} (h : q.toNat < (s.regsThrough x).length) :
    (s.regsThrough x)[q.toNat] = s.reg q := by
  simp [State.regsThrough, State.reg]

/-- V0 to Vx as they are read back where they were stored. -/
theorem storeBytes_regsThrough_readByte {x q : Nibble} (hm : MemCanonical s) (hI : s.I.toNat + x.toNat ≤ 0xFFF)
    (hq : q.toNat ≤ x.toNat) : (s.storeBytes s.I.toNat (s.regsThrough x)).readByte (s.I.toNat + q.toNat) = s.reg q := by
  have hlength := State.regsThrough_length s x
  rw [State.storeBytes_readByte s hm (by rw [hlength, memSize]; omega) (by omega), regsThrough_getElem]

theorem onlyBytes_storeBytes_regsThrough (s : State) (x : Nibble) :
    OnlyBytes s.I.toNat (x.toNat + 1) s (s.storeBytes s.I.toNat (s.regsThrough x)) :=
  State.regsThrough_length s x ▸ onlyBytes_storeBytes s s.I.toNat (s.regsThrough x)

theorem moveIndex_I_toNat (s : State) (x : Nibble) :
    (s.moveIndex x).I.toNat =
      if s.cfg.loadStoreIncrementsI = true then (s.I.toNat + x.toNat + 1) % 65536 else s.I.toNat := by
  have hx : x.toNat < 16 := x.isLt
  rw [State.moveIndex_I]
  split
  case isTrue => rw [BitVec.toNat_add, BitVec.toNat_ofNat, Nat.mod_eq_of_lt (by omega : x.toNat + 1 < 2 ^ 16), Nat.add_assoc]
  case isFalse => rfl

/-- Settles O35: the store, then the move of I, then the advance, each with its frame. -/
theorem storeRegistersThroughX : Obligations.StoreRegistersThroughX := by
  intro x s hm hI
  have hframe := onlyChanges_advance_of (onlyChanges_trans
    (onlyChanges_storeBytes s s.I.toNat (s.regsThrough x)) (onlyChanges_moveIndex _ x)) instrLen
  refine ⟨_, execLdMemVx_of_le s x hI, fun q hq => ?_, fun b hb => ?_, moveIndex_I_toNat _ x,
    congrArg (· + 2) (State.moveIndex_pc _ x), onlyChanges_of_subset (by simp) hframe⟩
  · rw [State.advance_readByte, State.moveIndex_readByte, storeBytes_regsThrough_readByte hm hI hq]
  · rw [State.advance_readByte, State.moveIndex_readByte, onlyBytes_storeBytes_regsThrough s x b hb]

/-- Settles O36: the load, then the move of I, then the advance, each with its frame. -/
theorem loadRegistersThroughX : Obligations.LoadRegistersThroughX := by
  intro x s hI
  have hframe := onlyChanges_advance_of
    (onlyChanges_trans (onlyChanges_loadRegs s x) (onlyChanges_moveIndex _ x)) instrLen
  refine ⟨_, execLdVxMem_of_le s x hI, fun q hq => ?_, fun q hq => ?_, moveIndex_I_toNat _ x,
    congrArg (· + 2) (State.moveIndex_pc _ x), onlyChanges_of_subset (by simp) hframe⟩
  · rw [State.advance_reg, State.moveIndex_reg, State.loadRegs_reg, if_pos hq]
  · rw [State.advance_reg, State.moveIndex_reg, State.loadRegs_reg, if_neg (Nat.not_le.mpr hq)]

/-- Settles O38: without LOADSTORE_INCREMENTS_I the load reads where the store wrote. -/
theorem storeThenLoadRestoresRegisters : Obligations.StoreThenLoadRestoresRegisters := by
  intro x s t u hm hkeepsI hI hstore huI hbytes
  obtain ⟨t', hexec, hstored, -, htI, -⟩ := storeRegistersThroughX x s hm hI
  rw [← eq_of_exec_eq hstore hexec, hkeepsI] at htI
  rw [← eq_of_exec_eq hstore hexec] at hstored
  have hsame : u.I.toNat = s.I.toNat := huI ▸ htI
  obtain ⟨v, hload, hloaded, -⟩ := loadRegistersThroughX x u (hsame ▸ hI)
  refine ⟨v, hload, fun q hq => ?_⟩
  calc v.reg q = u.readByte (s.I.toNat + q.toNat) := by rw [hloaded q hq, hsame]
    _ = t.readByte (s.I.toNat + q.toNat) := hbytes _ (by omega) (by omega)
    _ = s.reg q := hstored q hq

end Sys2Proof.Proofs
end

section
/-! SUPPORT. DRW (43_display.md R135 to R137) as one fold over the list of the sprite's pixels: no pixel is listed twice,
so each listed one is flipped once, from the value it had before the draw. -/

namespace Sys2Proof.Proofs

open Sys2Proof Sys2Proof.Machine

/-! ### Flipping the pixels of a list -/

/-- One sprite pixel XORed in, with the collision gathered so far (43_display.md R136). -/
def flipPixel (acc : Framebuffer × Bool) (p : Fin 64 × Fin 32) : Framebuffer × Bool :=
  ((acc.1.xorPixel p.1 p.2).1, acc.2 || (acc.1.xorPixel p.1 p.2).2)

theorem flipPixel_pixel (acc : Framebuffer × Bool) (p q : Fin 64 × Fin 32) :
    (flipPixel acc p).1.pixel q.1 q.2 = (acc.1.pixel q.1 q.2 ^^ decide (q = p)) := by
  rw [flipPixel, Framebuffer.xorPixel_pixel]
  congr 1
  exact decide_eq_decide.mpr Prod.ext_iff.symm

theorem foldl_flipPixel_pixel {ps : List (Fin 64 × Fin 32)} (hps : ps.Nodup) (acc : Framebuffer × Bool)
    (q : Fin 64 × Fin 32) :
    (ps.foldl flipPixel acc).1.pixel q.1 q.2 = (acc.1.pixel q.1 q.2 ^^ decide (q ∈ ps)) := by
  induction ps generalizing acc with
  | nil => simp
  | cons p ps ih =>
    obtain ⟨hp, hps⟩ := List.nodup_cons.mp hps
    rw [List.foldl_cons, ih hps, flipPixel_pixel, Bool.xor_assoc]
    by_cases hqp : q = p
    · subst hqp
      simp [hp]
    · simp [hqp]

/-- A pixel that is still to be flipped has its old value, as it is not listed twice. -/
theorem foldl_flipPixel_collision {ps : List (Fin 64 × Fin 32)} (hps : ps.Nodup) (acc : Framebuffer × Bool) :
    (ps.foldl flipPixel acc).2 = true ↔ acc.2 = true ∨ ∃ p ∈ ps, acc.1.pixel p.1 p.2 = true := by
  induction ps generalizing acc with
  | nil => simp
  | cons p ps ih =>
    obtain ⟨hp, hps⟩ := List.nodup_cons.mp hps
    have hlater : (∃ q ∈ ps, (flipPixel acc p).1.pixel q.1 q.2 = true) ↔ ∃ q ∈ ps, acc.1.pixel q.1 q.2 = true := by
      refine exists_congr fun q => and_congr_right fun hq => ?_
      have hqp : q ≠ p := fun h => hp (h ▸ hq)
      rw [flipPixel_pixel, decide_eq_false hqp, Bool.xor_false]
    have hnow : (flipPixel acc p).2 = true ↔ acc.2 = true ∨ acc.1.pixel p.1 p.2 = true := Bool.or_eq_true_iff
    rw [List.foldl_cons, ih hps, hlater, hnow, List.exists_mem_cons_iff, or_assoc]

/-! ### The pixels of a sprite -/

/-- The pixels under the 1 bits of row `r` of a sprite. -/
def rowPixels (cx cy b : Byte) (r : Nat) : List (Fin 64 × Fin 32) :=
  ((List.range 8).filter (spriteBit b)).map fun c => (wrapColumn cx c, wrapRow cy r)

/-- The pixels under the 1 bits of the `n`-byte sprite at I. -/
def spritePixels (s : State) (cx cy : Byte) (n : Nat) : List (Fin 64 × Fin 32) :=
  (List.range n).flatMap fun r => rowPixels cx cy (s.readByte (s.I.toNat + r)) r

theorem drawRow_eq_foldl (cx cy b : Byte) (r : Nat) (acc : Framebuffer × Bool) :
    drawRow cx cy b r acc = (rowPixels cx cy b r).foldl flipPixel acc := by
  rw [rowPixels, List.foldl_map, List.foldl_filter]
  rfl

theorem drawSprite_eq_foldl (s : State) (cx cy : Byte) (n : Nat) :
    s.drawSprite cx cy n = (spritePixels s cx cy n).foldl flipPixel (s.fb, false) := by
  rw [spritePixels, List.foldl_flatMap, State.drawSprite]
  simp only [drawRow_eq_foldl]

theorem mem_rowPixels {cx cy b : Byte} {r : Nat} {p : Fin 64 × Fin 32} :
    p ∈ rowPixels cx cy b r ↔ ∃ c < 8, spriteBit b c = true ∧ (wrapColumn cx c, wrapRow cy r) = p := by
  simp [rowPixels, and_assoc]

theorem mem_spritePixels {s : State} {cx cy : Byte} {n : Nat} {p : Fin 64 × Fin 32} :
    p ∈ spritePixels s cx cy n ↔ SpriteCovers s cx cy n p.1 p.2 := by
  simp only [spritePixels, List.mem_flatMap, List.mem_range, mem_rowPixels, SpriteCovers, Prod.ext_iff, Fin.ext_iff]
  constructor
  · rintro ⟨r, hr, c, hc, hbit, hx, hy⟩
    exact ⟨r, c, hr, hc, hx.symm, hy.symm, hbit⟩
  · rintro ⟨r, c, hr, hc, hx, hy, hbit⟩
    exact ⟨r, hr, c, hc, hbit, hx.symm, hy.symm⟩

/-- Eight columns in a row are different, as the screen is 64 wide. -/
theorem rowPixels_nodup (cx cy b : Byte) (r : Nat) : (rowPixels cx cy b r).Nodup := by
  refine List.Nodup.map_on (fun c hc d hd hcd => ?_) (List.nodup_range.filter _)
  have hcol : (cx.toNat + c) % 64 = (cx.toNat + d) % 64 := congrArg (fun p => p.1.val) hcd
  have hc8 : c < 8 := List.mem_range.mp (List.mem_of_mem_filter hc)
  have hd8 : d < 8 := List.mem_range.mp (List.mem_of_mem_filter hd)
  omega

/-- Up to 32 rows are different, as the screen is 32 high. -/
theorem spritePixels_nodup (s : State) (cx cy : Byte) {n : Nat} (hn : n ≤ 32) : (spritePixels s cx cy n).Nodup := by
  refine List.nodup_flatMap.mpr ⟨fun r _ => rowPixels_nodup _ _ _ r, ?_⟩
  refine List.Nodup.pairwise_of_forall_ne List.nodup_range fun r hr q hq hrq p hpr hpq => hrq ?_
  obtain ⟨c, -, -, hpc⟩ := mem_rowPixels.mp hpr
  obtain ⟨d, -, -, hpd⟩ := mem_rowPixels.mp hpq
  have hrow : (cy.toNat + r) % 32 = (cy.toNat + q) % 32 := congrArg (fun p => p.2.val) (hpc.trans hpd.symm)
  have hr32 := (List.mem_range.mp hr).trans_le hn
  have hq32 := (List.mem_range.mp hq).trans_le hn
  omega

section DrawSprite

variable (s : State) (cx cy : Byte) {n : Nat} (hn : n ≤ 32)
include hn

theorem drawSprite_pixel_of_covered {px : Fin 64} {py : Fin 32} (h : SpriteCovers s cx cy n px py) :
    (s.drawSprite cx cy n).1.pixel px py = !s.fb.pixel px py := by
  rw [drawSprite_eq_foldl, foldl_flipPixel_pixel (spritePixels_nodup s cx cy hn) _ (px, py),
    decide_eq_true (mem_spritePixels.mpr h), Bool.xor_true]

theorem drawSprite_pixel_of_not_covered {px : Fin 64} {py : Fin 32} (h : ¬SpriteCovers s cx cy n px py) :
    (s.drawSprite cx cy n).1.pixel px py = s.fb.pixel px py := by
  rw [drawSprite_eq_foldl, foldl_flipPixel_pixel (spritePixels_nodup s cx cy hn) _ (px, py),
    decide_eq_false fun hmem => h (mem_spritePixels.mp hmem), Bool.xor_false]

theorem drawSprite_collision_iff :
    (s.drawSprite cx cy n).2 = true ↔ ∃ px py, SpriteCovers s cx cy n px py ∧ s.fb.pixel px py = true := by
  rw [drawSprite_eq_foldl, foldl_flipPixel_collision (spritePixels_nodup s cx cy hn)]
  simp [mem_spritePixels]

end DrawSprite

/-! ### The statements -/

theorem nibble_toNat_le (n : Nibble) : n.toNat ≤ 32 := by
  have hn : n.toNat < 16 := n.isLt
  omega

/-- Settles O40: the screen and the collision are those of the fold over the sprite's pixels. -/
theorem drwFlipsCoveredPixels : Obligations.DrwFlipsCoveredPixels := by
  intro x y n s hbounds
  have hn := nibble_toNat_le n
  have hcollision := drawSprite_collision_iff s (s.reg x) (s.reg y) hn
  have hexec : exec (.drw x y n) s = _ := execDrw_of_inBounds s x y n hbounds
  obtain ⟨t, hexec', hframe⟩ := exec_onlyChanges (i := .drw x y n) (s := s) (if_neg (by omega))
  rw [← eq_of_exec_eq hexec hexec'] at hframe
  refine ⟨_, hexec, fun px py => drawSprite_pixel_of_covered s _ _ hn,
    fun px py => drawSprite_pixel_of_not_covered s _ _ hn, fun hset => ?_, fun hnone => ?_, fun q hq => ?_, rfl, rfl,
    onlyChanges_of_subset (by simp [writtenParts]) hframe⟩
  · rw [State.advance_reg, State.setDirty_reg, State.setVF_reg, if_pos rfl, hcollision.mpr hset]
    rfl
  · rw [State.advance_reg, State.setDirty_reg, State.setVF_reg, if_pos rfl,
      Bool.eq_false_iff.mpr fun h => hnone (hcollision.mp h)]
    rfl
  · have hqF : q ≠ VF := by simpa using hq
    simp [State.setVF_reg, hqF]

/-- The sprite of the second draw covers what that of the first did. -/
theorem spriteCovers_congr {s u : State} {cx cy : Byte} {n : Nat} {px : Fin 64} {py : Fin 32} (hI : u.I = s.I)
    (hbytes : ∀ r, r < n → u.readByte (s.I.toNat + r) = s.readByte (s.I.toNat + r)) :
    SpriteCovers u cx cy n px py ↔ SpriteCovers s cx cy n px py := by
  simp only [SpriteCovers, hI]
  refine exists_congr fun r => exists_congr fun c => and_congr_right fun hr => ?_
  rw [hbytes r hr]

/-- Settles O41: the second draw flips the same pixels back, and it erases those that the first one set. -/
theorem drawingTwiceRestoresTheScreen : Obligations.DrawingTwiceRestoresTheScreen := by
  intro x y n x' y' s t u hbounds hdraw hI hx hy hbytes hfb
  obtain ⟨t', hexec, hflip, hkeep, -⟩ := drwFlipsCoveredPixels x y n s hbounds
  rw [← eq_of_exec_eq hdraw hexec] at hflip hkeep
  obtain ⟨v, hexec', hflip', hkeep', hset, -⟩ := drwFlipsCoveredPixels x' y' n u (hI ▸ hbounds)
  rw [hx, hy] at hflip' hkeep' hset
  have hcovers {px py} := spriteCovers_congr (cx := s.reg x) (cy := s.reg y) (px := px) (py := py) hI hbytes
  refine ⟨v, hexec', fun px py => ?_, ?_⟩
  · by_cases hcovered : SpriteCovers s (s.reg x) (s.reg y) n.toNat px py
    · rw [hflip' px py (hcovers.mpr hcovered), hfb, hflip px py hcovered, Bool.not_not]
    · rw [hkeep' px py fun h => hcovered (hcovers.mp h), hfb, hkeep px py hcovered]
  · rintro ⟨px, py, hcovered, hclear⟩
    exact hset ⟨px, py, hcovers.mpr hcovered, by rw [hfb, hflip px py hcovered, hclear, Bool.not_false]⟩

/-- A screen with every pixel set, and I at the glyph of 0, whose first byte is 0xF0. -/
def fullScreen : State := (State.reset.setI 0x050).setFb (Vector.replicate 64 (Vector.replicate 32 true))

theorem fullScreen_pixel (px : Fin 64) (py : Fin 32) : fullScreen.fb.pixel px py = true := by
  simp [Framebuffer.pixel, fullScreen]

/-- Refutes O42: on `fullScreen` the first draw of the glyph's first row erases its four pixels, so the second finds none
of them set and leaves VF = 0, though the sprite has a 1 bit (log 26). -/
theorem not_secondOfTwoDrawsAlwaysCollides : ¬ Obligations.SecondOfTwoDrawsAlwaysCollides := by
  intro h
  have hbounds : (1 : Nibble).toNat = 0 ∨ fullScreen.I.toNat + (1 : Nibble).toNat - 1 ≤ 0xFFF := by decide
  obtain ⟨t, hdraw, hflip, -, -, -, hregs, -, -, hframe⟩ := drwFlipsCoveredPixels 0 0 1 fullScreen hbounds
  have hI : t.I = fullScreen.I := hframe .I (by simp)
  have hV0 : t.reg 0 = fullScreen.reg 0 := hregs 0 (by decide)
  have hmem : ∀ a, t.readByte a = fullScreen.readByte a := hframe .mem (by simp)
  obtain ⟨v, hagain, -, -, -, hnone, -⟩ := drwFlipsCoveredPixels 0 0 1 t (hI ▸ hbounds)
  have hzero : v.reg VF = 0 := by
    refine hnone ?_
    rintro ⟨px, py, hcovered, hset⟩
    rw [hV0, spriteCovers_congr hI fun r _ => hmem _] at hcovered
    rw [hflip px py hcovered, fullScreen_pixel] at hset
    cases hset
  have hone : v.reg VF = 1 := h 0 0 1 0 0 fullScreen t t v hbounds hdraw hI hV0 hV0 (fun r _ => hmem _)
    (fun _ _ => rfl) hagain ⟨0, 7, by decide, by decide, by decide⟩
  exact absurd (hzero.symm.trans hone) (by decide)

end Sys2Proof.Proofs
end
